-- ==== Sys2Proof/Word.lean ====
section
/-!
DEFINITION. The data types of EMQ-AES: bytes, 32-bit bus words, and the 16-byte block seen as four columns of
four bytes (40_primitives.md R119, R120), with bitwise exclusive OR on them (00_scope.md R16).
-/

namespace Sys2Proof

/-- A byte, an element of GF(2^8) (40_primitives.md R110). -/
abbrev Byte := BitVec 8

/-- A 32-bit word of the host bus (00_scope.md R15). -/
abbrev Word := BitVec 32

/-- Four bytes, the first first: a column of the state (40_primitives.md R120), a word `w[i]` of the key
expansion (41_key_schedule.md R140), or the four byte lanes of one register. -/
@[ext]
structure Column where
  r0 : Byte
  r1 : Byte
  r2 : Byte
  r3 : Byte
deriving DecidableEq, Repr

/-- A 16-byte block or round key (40_primitives.md R119) as its four columns (R120). -/
@[ext]
structure Block where
  c0 : Column
  c1 : Column
  c2 : Column
  c3 : Column
deriving DecidableEq, Repr

/-- The column of four zero bytes. -/
def Column.zero : Column := ⟨0, 0, 0, 0⟩

/-- The block of sixteen zero bytes. -/
def Block.zero : Block := ⟨.zero, .zero, .zero, .zero⟩

/-- Byte-wise exclusive OR of two columns (00_scope.md R16). -/
def Column.xor (a b : Column) : Column :=
  ⟨a.r0 ^^^ b.r0, a.r1 ^^^ b.r1, a.r2 ^^^ b.r2, a.r3 ^^^ b.r3⟩

/-- Byte-wise exclusive OR of two blocks (00_scope.md R16). -/
def Block.xor (a b : Block) : Block :=
  ⟨a.c0.xor b.c0, a.c1.xor b.c1, a.c2.xor b.c2, a.c3.xor b.c3⟩

end Sys2Proof
end

