-- ==== Sys2Proof/Syntax.lean ====
section
/-!
DEFINITION. The commands of EMQ-AES, one constructor per row of spec/opcode_table.json (30_encoding.md R91).
-/

namespace Sys2Proof

/-- A command. Every operand other than `KEYLEN` and `VERBOSE` is implicit in the registers (30_encoding.md R94). -/
inductive Instr where
  /-- `NOP`, OP 0x0 (45_control.md R217). -/
  | nop
  /-- `SETKEY_ENC`, OP 0x1, with `KEYLEN` in bytes (41_key_schedule.md R144; 30_encoding.md R92). -/
  | setkeyEnc (keylen : Nat)
  /-- `SETKEY_DEC`, OP 0x2, with `KEYLEN` in bytes (41_key_schedule.md R145). -/
  | setkeyDec (keylen : Nat)
  /-- `ECB_ENC`, OP 0x3 (42_block_transform.md R163). -/
  | ecbEnc
  /-- `ECB_DEC`, OP 0x4 (42_block_transform.md R164). -/
  | ecbDec
  /-- `CBC_ENC`, OP 0x5 (43_cbc.md R181). -/
  | cbcEnc
  /-- `CBC_DEC`, OP 0x6 (43_cbc.md R182). -/
  | cbcDec
  /-- `CFB_ENC`, OP 0x7 (44_cfb128.md R198). -/
  | cfbEnc
  /-- `CFB_DEC`, OP 0x8 (44_cfb128.md R199). -/
  | cfbDec
  /-- `SELF_TEST`, OP 0x9, with the `VERBOSE` bit (45_control.md R218, R222). -/
  | selfTest (verbose : Bool)
  /-- `CLEAR_CTX`, OP 0xA (41_key_schedule.md R148). -/
  | clearCtx
deriving DecidableEq, Repr

end Sys2Proof
end

