-- ==== Sys2Proof/WellFormed.lean ====
section
/-!
DEFINITION. Which terms of `Instr` are commands the command word can carry (30_encoding.md R90, R92).
-/

namespace Sys2Proof

/-- The `KEYLEN` field is 6 bits wide: a byte count 0..63, every value a legal encoding (30_encoding.md R92). -/
def keylenFits (keylen : Nat) : Bool := decide (keylen < 64)

/-- The command has a command word. -/
def Instr.wf : Instr → Bool
  | .nop => true
  | .setkeyEnc keylen => keylenFits keylen
  | .setkeyDec keylen => keylenFits keylen
  | .ecbEnc => true
  | .ecbDec => true
  | .cbcEnc => true
  | .cbcDec => true
  | .cfbEnc => true
  | .cfbDec => true
  | .selfTest _ => true
  | .clearCtx => true

/-- `Instr.wf` as a proposition. -/
abbrev Instr.WellFormed (i : Instr) : Prop := i.wf = true

end Sys2Proof
end

