-- ==== Sys2Proof/Decode.lean ====
section
/-!
DEFINITION. The command word (30_encoding.md): decoding, total on all 2^32 words and rejecting by name, and the
encoder written from the same table.
-/

namespace Sys2Proof

/-- Why a word is `ILLEGAL` (30_encoding.md R95, R96). All of them complete with `ILLEGAL_COMMAND`. -/
inductive IllegalReason where
  /-- A nonzero bit in [7:4], [15:14] or [31:17]. -/
  | reservedBits
  /-- An opcode 0xB to 0xF. -/
  | reservedOpcode
  /-- A nonzero `KEYLEN` outside `SETKEY_ENC` and `SETKEY_DEC`. -/
  | keylenNotAllowed
  /-- `VERBOSE = 1` outside `SELF_TEST`. -/
  | verboseNotAllowed
deriving DecidableEq, Repr

/-- What `decode` answers: `ILLEGAL`, with the reason, or a command (30_encoding.md R95). -/
inductive Decoded where
  | illegal (why : IllegalReason)
  | command (i : Instr)
deriving DecidableEq, Repr

/-- Bits [3:0] (30_encoding.md R90). -/
def opField (w : Word) : BitVec 4 := w.extractLsb' 0 4

/-- Bits [13:8], a byte count 0..63 (30_encoding.md R90, R92). -/
def keylenField (w : Word) : Nat := (w.extractLsb' 8 6).toNat

/-- Bit [16] (30_encoding.md R90, R93). -/
def verboseField (w : Word) : Bool := w.getLsbD 16

/-- The reserved bits [7:4], [15:14] and [31:17] are all zero (30_encoding.md R90). -/
def reservedClear (w : Word) : Bool :=
  w.extractLsb' 4 4 == 0 && w.extractLsb' 14 2 == 0 && w.extractLsb' 17 15 == 0

/-- The opcode map (30_encoding.md R91); `none` for the reserved opcodes 0xB to 0xF. -/
def opcodeMap (op : BitVec 4) (keylen : Nat) (verbose : Bool) : Option Instr :=
  match op.toNat with
  | 0x0 => some .nop
  | 0x1 => some (.setkeyEnc keylen)
  | 0x2 => some (.setkeyDec keylen)
  | 0x3 => some .ecbEnc
  | 0x4 => some .ecbDec
  | 0x5 => some .cbcEnc
  | 0x6 => some .cbcDec
  | 0x7 => some .cfbEnc
  | 0x8 => some .cfbDec
  | 0x9 => some (.selfTest verbose)
  | 0xA => some .clearCtx
  | _ => none

/-- `decode(w)`, with its checks in the order of 30_encoding.md R95. -/
def decode (w : Word) : Decoded :=
  if !reservedClear w then .illegal .reservedBits
  else
    match opcodeMap (opField w) (keylenField w) (verboseField w) with
    | none => .illegal .reservedOpcode
    | some i =>
      if keylenField w ≠ 0 ∧ opField w ≠ 0x1 ∧ opField w ≠ 0x2 then .illegal .keylenNotAllowed
      else if verboseField w = true ∧ opField w ≠ 0x9 then .illegal .verboseNotAllowed
      else .command i

/-- The command `decode` reads, if the word encodes one. -/
def Decoded.toInstr : Decoded → Option Instr
  | .illegal _ => none
  | .command i => some i

/-- The bits of an opcode-table word as the 32-bit command word: the table numbers bit 0 as the least significant
bit of the one word, and the bits above `nbits` are zero. -/
def tableWord (nbits w : Nat) : Word := BitVec.ofNat 32 (w % 2 ^ nbits)

/-- The command the decoder reads from an opcode-table word of `nbits` bits. -/
def decodeTableWord (nbits w : Nat) : Option Instr := (decode (tableWord nbits w)).toInstr

/-! ### The encoder -/

/-- `w = OP | KEYLEN << 8 | VERBOSE << 16` (30_encoding.md R100). -/
def commandWord (op keylen : Nat) (verbose : Bool) : Word :=
  BitVec.ofNat 32 op ||| (BitVec.ofNat 32 keylen <<< 8) ||| (BitVec.ofNat 32 verbose.toNat <<< 16)

/-- The command word of a command (30_encoding.md R91, R100). -/
def encode : Instr → Word
  | .nop => commandWord 0x0 0 false
  | .setkeyEnc keylen => commandWord 0x1 keylen false
  | .setkeyDec keylen => commandWord 0x2 keylen false
  | .ecbEnc => commandWord 0x3 0 false
  | .ecbDec => commandWord 0x4 0 false
  | .cbcEnc => commandWord 0x5 0 false
  | .cbcDec => commandWord 0x6 0 false
  | .cfbEnc => commandWord 0x7 0 false
  | .cfbDec => commandWord 0x8 0 false
  | .selfTest verbose => commandWord 0x9 0 verbose
  | .clearCtx => commandWord 0xA 0 false

end Sys2Proof
end

