-- ==== Sys2Proof/Config.lean ====
section
/-!
DEFINITION. What one implementation of EMQ-AES fixes (00_scope.md R14; 45_control.md R221), and the values the spec
leaves free (92_eei_decisions.md D39): constants without a body, about which nothing can be proved.
-/

namespace Sys2Proof

/-- The constant tables of the cipher, as a configuration parameter (45_control.md R221; 93_implementation_defined.md
U14). The spec's own tables are `Machine.Tables.standard`. -/
structure Tables where
  /-- The S-box, row `x[7:4]`, column `x[3:0]` (40_primitives.md R115). -/
  sbox : Vector (Vector Byte 16) 16
  /-- The inverse S-box, laid out the same way (40_primitives.md R117). -/
  sinv : Vector (Vector Byte 16) 16
  /-- `Rcon[1..10]` (40_primitives.md R118); entry 0 of the vector is `Rcon[1]`. -/
  rcon : Vector Byte 10
deriving DecidableEq, Repr

/-- The parameters of one EMQ-AES block. No step changes them. -/
structure Config where
  /-- `DBUF_SIZE`, the size of the data buffer in bytes, 16 to 4096 (00_scope.md R14). -/
  dbufSize : Nat
  /-- The cipher's tables (45_control.md R221). -/
  tables : Tables
deriving DecidableEq, Repr

/-- `DBUF_SIZE` is a legal size (00_scope.md R14: 16 <= DBUF_SIZE <= 4096). -/
def Config.legal (c : Config) : Bool := decide (16 ≤ c.dbufSize) && decide (c.dbufSize ≤ 4096)

/-- The value of a `DBUF` byte nothing has written since reset number `epoch`: a draw fixed at that reset
(70_reset_and_hazards.md R266; 93_implementation_defined.md U4). Log entry 2. -/
opaque Config.dbufDraw (epoch addr : Nat) : Byte

/-- The `n`-th fresh 32-bit draw: what a read that the spec leaves unspecified returns (20_memory.md R71;
93_implementation_defined.md U3). Log entries 3 and 8. -/
opaque Config.readDraw (n : Nat) : Word

end Sys2Proof
end

