-- ==== Sys2Proof/Machine/Primitives.lean ====
section
/-!
DEFINITION. The AES primitives (40_primitives.md): GF(2^8), the S-box, the inverse S-box and the round constants, the
byte order of a block, and the steps of a round in both directions. Every function is total.
-/

namespace Sys2Proof.Machine

/-! ### The field GF(2^8) -/

/-- Multiplication by x (40_primitives.md R111). -/
def xtime (a : Byte) : Byte := (a <<< 1) ^^^ (if a.getLsbD 7 then 0x1B else 0x00)

/-- The loop of `gmul` (40_primitives.md R112): the bits of `b` from bit 0 up, `t` the running multiple of `a`,
`r` the sum so far, `k` the passes still to make. -/
def gmulLoop : (k : Nat) → (b t r : Byte) → Byte
  | 0, _, _, r => r
  | k + 1, b, t, r => gmulLoop k (b >>> 1) (xtime t) (if b.getLsbD 0 then r ^^^ t else r)

/-- The GF(2^8) product of `a` and `b` (40_primitives.md R112). -/
def gmul (a b : Byte) : Byte := gmulLoop 8 b a 0

/-- `ginv(a)`, the multiplicative inverse: the byte `b` with `gmul(a, b) = 1`, and 0 for 0, which has none
(40_primitives.md R113). -/
def ginv (a : Byte) : Byte :=
  (((List.range 256).map (BitVec.ofNat 8)).find? fun b => gmul a b == 1).getD 0

/-- `rotl8(b, n)`, n = 1..4 (40_primitives.md R114). -/
def rotl8 (b : Byte) (n : Nat) : Byte := (b <<< n) ||| (b >>> (8 - n))

/-- The value of `S(x)` by the algebraic definition (40_primitives.md R114), which the table of R115 tabulates. -/
def sBoxFormula (x : Byte) : Byte :=
  let b := ginv x
  b ^^^ rotl8 b 1 ^^^ rotl8 b 2 ^^^ rotl8 b 3 ^^^ rotl8 b 4 ^^^ 0x63

/-! ### The tables -/

/-- The S-box table (40_primitives.md R115), row `x[7:4]`, column `x[3:0]`. -/
def Tables.standardSbox : Vector (Vector Byte 16) 16 := #v[
  #v[0x63, 0x7c, 0x77, 0x7b, 0xf2, 0x6b, 0x6f, 0xc5, 0x30, 0x01, 0x67, 0x2b, 0xfe, 0xd7, 0xab, 0x76],
  #v[0xca, 0x82, 0xc9, 0x7d, 0xfa, 0x59, 0x47, 0xf0, 0xad, 0xd4, 0xa2, 0xaf, 0x9c, 0xa4, 0x72, 0xc0],
  #v[0xb7, 0xfd, 0x93, 0x26, 0x36, 0x3f, 0xf7, 0xcc, 0x34, 0xa5, 0xe5, 0xf1, 0x71, 0xd8, 0x31, 0x15],
  #v[0x04, 0xc7, 0x23, 0xc3, 0x18, 0x96, 0x05, 0x9a, 0x07, 0x12, 0x80, 0xe2, 0xeb, 0x27, 0xb2, 0x75],
  #v[0x09, 0x83, 0x2c, 0x1a, 0x1b, 0x6e, 0x5a, 0xa0, 0x52, 0x3b, 0xd6, 0xb3, 0x29, 0xe3, 0x2f, 0x84],
  #v[0x53, 0xd1, 0x00, 0xed, 0x20, 0xfc, 0xb1, 0x5b, 0x6a, 0xcb, 0xbe, 0x39, 0x4a, 0x4c, 0x58, 0xcf],
  #v[0xd0, 0xef, 0xaa, 0xfb, 0x43, 0x4d, 0x33, 0x85, 0x45, 0xf9, 0x02, 0x7f, 0x50, 0x3c, 0x9f, 0xa8],
  #v[0x51, 0xa3, 0x40, 0x8f, 0x92, 0x9d, 0x38, 0xf5, 0xbc, 0xb6, 0xda, 0x21, 0x10, 0xff, 0xf3, 0xd2],
  #v[0xcd, 0x0c, 0x13, 0xec, 0x5f, 0x97, 0x44, 0x17, 0xc4, 0xa7, 0x7e, 0x3d, 0x64, 0x5d, 0x19, 0x73],
  #v[0x60, 0x81, 0x4f, 0xdc, 0x22, 0x2a, 0x90, 0x88, 0x46, 0xee, 0xb8, 0x14, 0xde, 0x5e, 0x0b, 0xdb],
  #v[0xe0, 0x32, 0x3a, 0x0a, 0x49, 0x06, 0x24, 0x5c, 0xc2, 0xd3, 0xac, 0x62, 0x91, 0x95, 0xe4, 0x79],
  #v[0xe7, 0xc8, 0x37, 0x6d, 0x8d, 0xd5, 0x4e, 0xa9, 0x6c, 0x56, 0xf4, 0xea, 0x65, 0x7a, 0xae, 0x08],
  #v[0xba, 0x78, 0x25, 0x2e, 0x1c, 0xa6, 0xb4, 0xc6, 0xe8, 0xdd, 0x74, 0x1f, 0x4b, 0xbd, 0x8b, 0x8a],
  #v[0x70, 0x3e, 0xb5, 0x66, 0x48, 0x03, 0xf6, 0x0e, 0x61, 0x35, 0x57, 0xb9, 0x86, 0xc1, 0x1d, 0x9e],
  #v[0xe1, 0xf8, 0x98, 0x11, 0x69, 0xd9, 0x8e, 0x94, 0x9b, 0x1e, 0x87, 0xe9, 0xce, 0x55, 0x28, 0xdf],
  #v[0x8c, 0xa1, 0x89, 0x0d, 0xbf, 0xe6, 0x42, 0x68, 0x41, 0x99, 0x2d, 0x0f, 0xb0, 0x54, 0xbb, 0x16]]

/-- The inverse S-box table (40_primitives.md R117), row `y[7:4]`, column `y[3:0]`. -/
def Tables.standardSinv : Vector (Vector Byte 16) 16 := #v[
  #v[0x52, 0x09, 0x6a, 0xd5, 0x30, 0x36, 0xa5, 0x38, 0xbf, 0x40, 0xa3, 0x9e, 0x81, 0xf3, 0xd7, 0xfb],
  #v[0x7c, 0xe3, 0x39, 0x82, 0x9b, 0x2f, 0xff, 0x87, 0x34, 0x8e, 0x43, 0x44, 0xc4, 0xde, 0xe9, 0xcb],
  #v[0x54, 0x7b, 0x94, 0x32, 0xa6, 0xc2, 0x23, 0x3d, 0xee, 0x4c, 0x95, 0x0b, 0x42, 0xfa, 0xc3, 0x4e],
  #v[0x08, 0x2e, 0xa1, 0x66, 0x28, 0xd9, 0x24, 0xb2, 0x76, 0x5b, 0xa2, 0x49, 0x6d, 0x8b, 0xd1, 0x25],
  #v[0x72, 0xf8, 0xf6, 0x64, 0x86, 0x68, 0x98, 0x16, 0xd4, 0xa4, 0x5c, 0xcc, 0x5d, 0x65, 0xb6, 0x92],
  #v[0x6c, 0x70, 0x48, 0x50, 0xfd, 0xed, 0xb9, 0xda, 0x5e, 0x15, 0x46, 0x57, 0xa7, 0x8d, 0x9d, 0x84],
  #v[0x90, 0xd8, 0xab, 0x00, 0x8c, 0xbc, 0xd3, 0x0a, 0xf7, 0xe4, 0x58, 0x05, 0xb8, 0xb3, 0x45, 0x06],
  #v[0xd0, 0x2c, 0x1e, 0x8f, 0xca, 0x3f, 0x0f, 0x02, 0xc1, 0xaf, 0xbd, 0x03, 0x01, 0x13, 0x8a, 0x6b],
  #v[0x3a, 0x91, 0x11, 0x41, 0x4f, 0x67, 0xdc, 0xea, 0x97, 0xf2, 0xcf, 0xce, 0xf0, 0xb4, 0xe6, 0x73],
  #v[0x96, 0xac, 0x74, 0x22, 0xe7, 0xad, 0x35, 0x85, 0xe2, 0xf9, 0x37, 0xe8, 0x1c, 0x75, 0xdf, 0x6e],
  #v[0x47, 0xf1, 0x1a, 0x71, 0x1d, 0x29, 0xc5, 0x89, 0x6f, 0xb7, 0x62, 0x0e, 0xaa, 0x18, 0xbe, 0x1b],
  #v[0xfc, 0x56, 0x3e, 0x4b, 0xc6, 0xd2, 0x79, 0x20, 0x9a, 0xdb, 0xc0, 0xfe, 0x78, 0xcd, 0x5a, 0xf4],
  #v[0x1f, 0xdd, 0xa8, 0x33, 0x88, 0x07, 0xc7, 0x31, 0xb1, 0x12, 0x10, 0x59, 0x27, 0x80, 0xec, 0x5f],
  #v[0x60, 0x51, 0x7f, 0xa9, 0x19, 0xb5, 0x4a, 0x0d, 0x2d, 0xe5, 0x7a, 0x9f, 0x93, 0xc9, 0x9c, 0xef],
  #v[0xa0, 0xe0, 0x3b, 0x4d, 0xae, 0x2a, 0xf5, 0xb0, 0xc8, 0xeb, 0xbb, 0x3c, 0x83, 0x53, 0x99, 0x61],
  #v[0x17, 0x2b, 0x04, 0x7e, 0xba, 0x77, 0xd6, 0x26, 0xe1, 0x69, 0x14, 0x63, 0x55, 0x21, 0x0c, 0x7d]]

/-- The round constants `Rcon[1..10]` (40_primitives.md R118). -/
def Tables.standardRcon : Vector Byte 10 := #v[0x01, 0x02, 0x04, 0x08, 0x10, 0x20, 0x40, 0x80, 0x1b, 0x36]

/-- The spec's tables: "constants of the block" (92_eei_decisions.md D42; 45_control.md R221). -/
def Tables.standard : Tables := ⟨Tables.standardSbox, Tables.standardSinv, Tables.standardRcon⟩

/-- The entry of a 256-entry table at `x`: row `x[7:4]`, column `x[3:0]` (40_primitives.md R115, R117). -/
def tableAt (t : Vector (Vector Byte 16) 16) (x : Byte) : Byte :=
  (t.toList.getD (x.toNat / 16) (Vector.replicate 16 0)).toList.getD (x.toNat % 16) 0

/-- The S-box `S` (40_primitives.md R114, R115). -/
def sBox (T : Tables) (x : Byte) : Byte := tableAt T.sbox x

/-- The inverse S-box `Sinv` (40_primitives.md R116, R117). -/
def sInv (T : Tables) (y : Byte) : Byte := tableAt T.sinv y

/-- `Rcon[j]`, j = 1..10 (40_primitives.md R118). The spec gives no other index and no rule uses one; zero there is the
model's own. DESIGN CHOICE, safe (log entry 19). -/
def rcon (T : Tables) (j : Nat) : Byte := if j = 0 then 0 else T.rcon.toList.getD (j - 1) 0

/-! ### The block as bytes -/

/-- Byte `r` of a column, r = 0..3 (40_primitives.md R120). -/
def columnByte (c : Column) : Nat → Byte
  | 0 => c.r0
  | 1 => c.r1
  | 2 => c.r2
  | _ => c.r3

/-- The column with byte `r` replaced. -/
def setColumnByte (c : Column) (r : Nat) (v : Byte) : Column :=
  match r with
  | 0 => { c with r0 := v }
  | 1 => { c with r1 := v }
  | 2 => { c with r2 := v }
  | _ => { c with r3 := v }

/-- Block byte `b[i]`, i = 0..15: row `i mod 4` of column `i div 4` (40_primitives.md R120; 20_memory.md R74). -/
def blockByte (b : Block) (i : Nat) : Byte :=
  match i / 4 with
  | 0 => columnByte b.c0 (i % 4)
  | 1 => columnByte b.c1 (i % 4)
  | 2 => columnByte b.c2 (i % 4)
  | _ => columnByte b.c3 (i % 4)

/-- The block with byte `b[i]` replaced. -/
def setBlockByte (b : Block) (i : Nat) (v : Byte) : Block :=
  match i / 4 with
  | 0 => { b with c0 := setColumnByte b.c0 (i % 4) v }
  | 1 => { b with c1 := setColumnByte b.c1 (i % 4) v }
  | 2 => { b with c2 := setColumnByte b.c2 (i % 4) v }
  | _ => { b with c3 := setColumnByte b.c3 (i % 4) v }

/-- The block whose byte `b[i]` is `f i` (40_primitives.md R120). -/
def blockOfBytes (f : Nat → Byte) : Block :=
  ⟨⟨f 0, f 1, f 2, f 3⟩, ⟨f 4, f 5, f 6, f 7⟩, ⟨f 8, f 9, f 10, f 11⟩, ⟨f 12, f 13, f 14, f 15⟩⟩

/-- The 16 bytes of a block, byte 0 first. -/
def blockBytes (b : Block) : List Byte :=
  [b.c0.r0, b.c0.r1, b.c0.r2, b.c0.r3, b.c1.r0, b.c1.r1, b.c1.r2, b.c1.r3,
   b.c2.r0, b.c2.r1, b.c2.r2, b.c2.r3, b.c3.r0, b.c3.r1, b.c3.r2, b.c3.r3]

/-- The column written as a hexadecimal byte string, byte 0 first (00_scope.md R16): `0x01020304` is 01, 02, 03, 04. -/
def hexColumn (v : BitVec 32) : Column :=
  ⟨v.extractLsb' 24 8, v.extractLsb' 16 8, v.extractLsb' 8 8, v.extractLsb' 0 8⟩

/-- The block written as a hexadecimal byte string, byte 0 first (00_scope.md R16). -/
def hexBlock (v : BitVec 128) : Block :=
  ⟨hexColumn (v.extractLsb' 96 32), hexColumn (v.extractLsb' 64 32), hexColumn (v.extractLsb' 32 32),
   hexColumn (v.extractLsb' 0 32)⟩

/-! ### Round steps -/

/-- The column with `f` applied to each byte. -/
def mapColumn (f : Byte → Byte) (c : Column) : Column := ⟨f c.r0, f c.r1, f c.r2, f c.r3⟩

/-- The block with `f` applied to each byte. -/
def mapBlock (f : Byte → Byte) (b : Block) : Block :=
  ⟨mapColumn f b.c0, mapColumn f b.c1, mapColumn f b.c2, mapColumn f b.c3⟩

/-- SubBytes (40_primitives.md R121). -/
def subBytes (T : Tables) (b : Block) : Block := mapBlock (sBox T) b

/-- InvSubBytes (40_primitives.md R122). -/
def invSubBytes (T : Tables) (b : Block) : Block := mapBlock (sInv T) b

/-- ShiftRows: row r moves left by r, `out[r + 4c] = b[r + 4((c + r) mod 4)]` (40_primitives.md R123). -/
def shiftRows (b : Block) : Block :=
  ⟨⟨b.c0.r0, b.c1.r1, b.c2.r2, b.c3.r3⟩, ⟨b.c1.r0, b.c2.r1, b.c3.r2, b.c0.r3⟩,
   ⟨b.c2.r0, b.c3.r1, b.c0.r2, b.c1.r3⟩, ⟨b.c3.r0, b.c0.r1, b.c1.r2, b.c2.r3⟩⟩

/-- InvShiftRows: row r moves right by r, `out[r + 4c] = b[r + 4((c - r) mod 4)]` (40_primitives.md R124). -/
def invShiftRows (b : Block) : Block :=
  ⟨⟨b.c0.r0, b.c3.r1, b.c2.r2, b.c1.r3⟩, ⟨b.c1.r0, b.c0.r1, b.c3.r2, b.c2.r3⟩,
   ⟨b.c2.r0, b.c1.r1, b.c0.r2, b.c3.r3⟩, ⟨b.c3.r0, b.c2.r1, b.c1.r2, b.c0.r3⟩⟩

/-- MixColumns on one column (40_primitives.md R125). `gmul` is commutative (R112): the matrix entry is given second, so
that the loop of `gmul` runs over its bits. -/
def mixColumn (a : Column) : Column :=
  ⟨gmul a.r0 2 ^^^ gmul a.r1 3 ^^^ a.r2 ^^^ a.r3,
   a.r0 ^^^ gmul a.r1 2 ^^^ gmul a.r2 3 ^^^ a.r3,
   a.r0 ^^^ a.r1 ^^^ gmul a.r2 2 ^^^ gmul a.r3 3,
   gmul a.r0 3 ^^^ a.r1 ^^^ a.r2 ^^^ gmul a.r3 2⟩

/-- InvMixColumns on one column (40_primitives.md R126), the matrix entry given second as in `mixColumn`. -/
def invMixColumn (a : Column) : Column :=
  ⟨gmul a.r0 14 ^^^ gmul a.r1 11 ^^^ gmul a.r2 13 ^^^ gmul a.r3 9,
   gmul a.r0 9 ^^^ gmul a.r1 14 ^^^ gmul a.r2 11 ^^^ gmul a.r3 13,
   gmul a.r0 13 ^^^ gmul a.r1 9 ^^^ gmul a.r2 14 ^^^ gmul a.r3 11,
   gmul a.r0 11 ^^^ gmul a.r1 13 ^^^ gmul a.r2 9 ^^^ gmul a.r3 14⟩

/-- MixColumns (40_primitives.md R125). -/
def mixColumns (b : Block) : Block := ⟨mixColumn b.c0, mixColumn b.c1, mixColumn b.c2, mixColumn b.c3⟩

/-- InvMixColumns (40_primitives.md R126). -/
def invMixColumns (b : Block) : Block :=
  ⟨invMixColumn b.c0, invMixColumn b.c1, invMixColumn b.c2, invMixColumn b.c3⟩

/-- AddRoundKey (40_primitives.md R127). -/
def addRoundKey (b k : Block) : Block := b.xor k

end Sys2Proof.Machine
end

