-- ==== Sys2Proof/Machine/State.lean ====
section
/-!
DEFINITION. The state of EMQ-AES (10_state.md R20), as plain data, and the state after reset
(70_reset_and_hazards.md R265). Beside the block's own state it holds the block's parameters (00_scope.md R14) and
the model's bookkeeping: the host accesses still to come, the response to the latest one, the faults recorded, and
the counters that pick the free values.
-/

namespace Sys2Proof.Machine

/-- The sequencer (10_state.md R24). -/
inductive Seq where
  /-- No command in flight. -/
  | idle
  /-- The command word `w` is being executed. -/
  | busy (w : Word)
deriving DecidableEq, Repr

/-- The direction a context was scheduled for, `STATUS.CTX_DIR` (10_state.md R26). -/
inductive Dir where
  /-- 0: encryption. -/
  | enc
  /-- 1: decryption. -/
  | dec
deriving DecidableEq, Repr

/-- The values of `STATUS.ERR`, by name (60_exceptions.md R235). Codes 7 to 15 are never written. -/
inductive ErrCode where
  /-- Code 0: the command succeeded. -/
  | ok
  /-- Code 1: `KEYLEN` is not 16, 24 or 32 (R238). -/
  | invalidKeyLength
  /-- Code 2: `LEN mod 16 != 0` in CBC (R239). -/
  | invalidInputLength
  /-- Code 3: a known-answer check mismatched (R240). -/
  | selfTestFailed
  /-- Code 4: the word encodes no command (R242). -/
  | illegalCommand
  /-- Code 5: no context, or one of the wrong direction (R243). -/
  | contractViolation
  /-- Code 6: a buffer reaches past `DBUF_SIZE` (R244). -/
  | rangeError
deriving DecidableEq, Repr

/-- A host bus access: offset from `BASE` and size in bytes (20_memory.md R62). Both are any number here, since the
block answers every access, a legal one or not. -/
inductive Access where
  | read (offset size : Nat)
  | write (offset size : Nat) (data : Word)
deriving DecidableEq, Repr

/-- How a bus access completes (20_memory.md R62). -/
inductive BusStatus where
  | okay
  | error
deriving DecidableEq, Repr

/-- The response to a bus access: its status, and the data of a read. -/
structure Response where
  status : BusStatus
  data : Option Word
deriving DecidableEq, Repr

/-- A fault the spec tells a model to record about the host's program (93_implementation_defined.md Part 1); the
block itself goes on. -/
inductive HostFault where
  /-- A data command with no context or one of the wrong direction (60_exceptions.md R243; U1). -/
  | contractViolation
  /-- A bus access the block does not accept, naming the access (60_exceptions.md R241; U11). -/
  | busError (a : Access)
deriving DecidableEq, Repr

/-- What can happen to the block next, from outside or by the schedule (20_memory.md R77; 60_exceptions.md R248). -/
inductive Input where
  /-- The host makes a bus access. -/
  | access (a : Access)
  /-- The platform drives the reset input (70_reset_and_hazards.md R265, R267). -/
  | reset
  /-- The engine has its turn: it completes the command in flight, if there is one. -/
  | engine
deriving DecidableEq, Repr

/-- Memory: the bytes written since reset as (address, byte) pairs, by strictly rising address. An unlisted address
holds no written byte; what reading it gives is `dbufByte`'s business (70_reset_and_hazards.md R266). -/
abbrev Memory := List Host.Cell

/-- The state of the machine. -/
@[ext]
structure State where
  /-- `CTRL.IE` (10_state.md R23). -/
  ie : Bool
  /-- `SEQ` (R24). `STATUS.BUSY` is 1 exactly when it is `BUSY(_)`, so it has no field of its own. -/
  seq : Seq
  /-- `STATUS.DONE` (R26). -/
  done : Bool
  /-- `STATUS.OVR` (R26). -/
  ovr : Bool
  /-- `STATUS.ERR` (R26). -/
  err : ErrCode
  /-- `STATUS.CTX_VALID` (R26, R30). -/
  ctxValid : Bool
  /-- `STATUS.CTX_DIR` (R26, R30). -/
  ctxDir : Dir
  /-- `STATUS.NR` (R26, R30). -/
  nr : BitVec 4
  /-- The round-key slots `RK[0..14]` (R30, R31). -/
  rk : Vector Block 15
  /-- `LEN` (R27). -/
  len : Word
  /-- `SRC` (R28). -/
  src : Word
  /-- `DST` (R28). -/
  dst : Word
  /-- `OFFSET[3:0]` (R29). -/
  offset : BitVec 4
  /-- `ST_RESULT.PASS[11:0]` (R37). -/
  stPass : BitVec 12
  /-- `ST_RESULT.ST_RAN` (R37). -/
  stRan : Bool
  /-- `KEY0..KEY7` (R33), the four bytes of each. -/
  key : Vector Column 8
  /-- `IV0..IV3` (R34). -/
  iv : Block
  /-- `DIN0..DIN3` (R35). -/
  din : Block
  /-- `DOUT0..DOUT3` (R36). -/
  dout : Block
  /-- The bytes of `DBUF` written since reset (R40), by rising address. -/
  dbuf : Memory
  /-- The block's parameters (00_scope.md R14; 45_control.md R221). -/
  cfg : Config
  /-- The model's own: which reset the block is in, so that `DBUF` is drawn anew at each (70_reset_and_hazards.md
  R266; 93_implementation_defined.md U13). -/
  epoch : Nat
  /-- The model's own: how many fresh values reads have drawn (20_memory.md R71). -/
  draws : Nat
  /-- The model's own: the response to the latest host access since reset. -/
  resp : Option Response
  /-- The model's own: the recorded faults, the latest first. -/
  faults : List HostFault
  /-- The model's own: what is still to happen, the next first. -/
  inputs : List Input
deriving DecidableEq, Repr

/-- No step of this machine stops: "No behaviour is treated as `stuck`. Every command completes (U6), and no state of
the block stops it" (93_implementation_defined.md Part 1). The faults the spec names are recorded in `State.faults`
while the block goes on, so this type has no constructor and nobody raises one. -/
inductive Fault where
deriving DecidableEq, Repr

/-- Why a command has no meaning. -/
inductive Refusal where
  /-- Raised by `exec` for a command that is not modelled yet, and by nobody else. Safe: the machine stops where the
  hardware goes on. No arm of `exec` raises it now. -/
  | notModelled (mnemonic : String)
deriving DecidableEq, Repr

/-- The state after reset (70_reset_and_hazards.md R265, R284). `RK` is unspecified there and unobservable; the zeros
are the model's (log entry 4). `DBUF` holds nothing written (R266; log entry 2). `cfg` holds the spec's default size
and its tables (log entry 6). Nothing has been drawn, recorded or asked for. -/
def State.reset : State where
  ie := false
  seq := .idle
  done := false
  ovr := false
  err := .ok
  ctxValid := false
  ctxDir := .enc
  nr := 0
  rk := Vector.replicate 15 Block.zero
  len := 0
  src := 0
  dst := 0
  offset := 0
  stPass := 0
  stRan := false
  key := Vector.replicate 8 Column.zero
  iv := Block.zero
  din := Block.zero
  dout := Block.zero
  dbuf := []
  cfg := { dbufSize := 4096, tables := Tables.standard }
  epoch := 0
  draws := 0
  resp := none
  faults := []
  inputs := []

end Sys2Proof.Machine
end

