-- ==== Sys2Proof/Machine/Ops.lean ====
section
/-!
DEFINITION. The named operations every meaning is written over: the data buffer, the Cipher Context, issue and
completion of a command, the one way an error ends a command, and the reset input.
-/

namespace Sys2Proof.Machine

/-! ### The data buffer and the block registers -/

/-- The byte written at `a` since reset, if any. -/
def Memory.get? : Memory → Nat → Option Byte
  | [], _ => none
  | (b, v) :: rest, a => if a = b then some v else Memory.get? rest a

/-- The memory with `v` written at `a`, keeping the addresses rising. -/
def Memory.set : Memory → Nat → Byte → Memory
  | [], a, v => [(a, v)]
  | (b, w) :: rest, a, v =>
    if a < b then (a, v) :: (b, w) :: rest
    else if a = b then (a, v) :: rest
    else (b, w) :: Memory.set rest a v

/-- The addresses rise strictly, the first at least `lo`. -/
def Memory.rising : Nat → Memory → Bool
  | _, [] => true
  | lo, (a, _) :: rest => decide (lo ≤ a) && Memory.rising (a + 1) rest

/-- The canonical form: the addresses rise strictly and lie below `size`. An unlisted address holds no written byte,
so no entry can equal what an unlisted address holds. -/
def Memory.wf (size : Nat) (m : Memory) : Bool :=
  Memory.rising 0 m && m.all fun cell => decide (cell.1 < size)

/-- `DBUF[a]` (10_state.md R40). A byte nothing has written since reset is that reset's draw (70_reset_and_hazards.md
R266; log entry 2). -/
def dbufByte (s : State) (a : Nat) : Byte :=
  match Memory.get? s.dbuf a with
  | some v => v
  | none => Config.dbufDraw s.epoch a

/-- `DBUF[a] <- v`. The callers check the range first (00_scope.md R17). -/
def setDbufByte (s : State) (a : Nat) (v : Byte) : State :=
  { s with dbuf := Memory.set s.dbuf a v }

/-- `x[IV] <- v`. -/
def setIv (v : Block) (s : State) : State := { s with iv := v }

/-- `x[DOUT] <- v`. -/
def setDout (v : Block) (s : State) : State := { s with dout := v }

/-- `MemWrite(a, n, v)`: byte `v[i]` to `DBUF[a+i]` in increasing i (00_scope.md R17). -/
def memWrite (s : State) (a : Nat) : List Byte → State
  | [] => s
  | v :: vs => memWrite (setDbufByte s a v) (a + 1) vs

/-! ### Loops -/

/-- `for j in 0 .. n-1: body`, in that order. -/
def forUpTo (body : Nat → State → State) : Nat → State → State
  | 0, s => s
  | n + 1, s => body n (forUpTo body n s)

/-! ### The Cipher Context (10_state.md R30) -/

/-- A round count with the round keys `0..nr` (41_key_schedule.md R142, R143). -/
structure Schedule where
  nr : Nat
  keys : List Block
deriving DecidableEq, Repr

/-- The slots with the round keys stored from slot `r` on; the other slots keep what they hold (10_state.md R31). -/
def storeKeys (rk : Vector Block 15) (r : Nat) : List Block → Vector Block 15
  | [] => rk
  | k :: ks => storeKeys (rk.setIfInBounds r k) (r + 1) ks

/-- The context replaced whole by a schedule for direction `d` (41_key_schedule.md R144, R145). -/
def loadContext (d : Dir) (sched : Schedule) (s : State) : State :=
  { s with
    rk := storeKeys s.rk 0 sched.keys
    nr := BitVec.ofNat 4 sched.nr
    ctxDir := d
    ctxValid := true }

/-- The context made unusable, all else kept: what a failed `SETKEY_*` does (41_key_schedule.md R147). -/
def dropContext (s : State) : State := { s with ctxValid := false }

/-- The context and the key destroyed (41_key_schedule.md R148). -/
def clearContext (s : State) : State :=
  { s with
    rk := Vector.replicate 15 Block.zero
    key := Vector.replicate 8 Column.zero
    ctxValid := false
    ctxDir := .enc
    nr := 0 }

/-! ### Issue and completion -/

/-- Issue of the word `w` (45_control.md R215): `ERR` keeps the previous code and no operand is sampled. -/
def issue (w : Word) (s : State) : State := { s with seq := .busy w, done := false }

/-- What the engine finds to do: the decoding of the word in flight, or nothing when idle (45_control.md R216). -/
def fetch (s : State) : Option Decoded :=
  match s.seq with
  | .idle => none
  | .busy w => some (decode w)

/-- The update every completion ends with (45_control.md R216): `ERR <- code`, `SEQ <- IDLE` (so `BUSY <- 0`),
`DONE <- 1`. -/
def finish (code : ErrCode) (s : State) : State := { s with err := code, seq := .idle, done := true }

/-- The faults a model records with an error: a contract violation, and no other (60_exceptions.md R243, R244). -/
def faultsOf : ErrCode → List HostFault
  | .ok => []
  | .invalidKeyLength => []
  | .invalidInputLength => []
  | .selfTestFailed => []
  | .illegalCommand => []
  | .contractViolation => [.contractViolation]
  | .rangeError => []

/-- A command that ends with `code`: the completion update (45_control.md R216), and for a contract violation the
recorded fault (60_exceptions.md R243). -/
def complete (code : ErrCode) (s : State) : Host.Outcome State Fault Refusal :=
  .next (finish code { s with faults := faultsOf code ++ s.faults })

/-- A command that ended normally: code 0. -/
def succeed (s : State) : Host.Outcome State Fault Refusal := complete .ok s

/-- `raise E`, the one way an error ends a command (60_exceptions.md R236, R249): the completion update with E's code
and no other change of the block's state. No state is saved and control goes nowhere. There is no return from it
(R250): the host clears `DONE` or issues the next command. -/
def raise (code : ErrCode) (s : State) : Host.Outcome State Fault Refusal := complete code s

/-- A command whose checks give `check`: the first failing one is raised, else `body` takes effect (60_exceptions.md
R236, R247). -/
def runChecked (check : Option ErrCode) (body : State → State) (s : State) : Host.Outcome State Fault Refusal :=
  match check with
  | some code => raise code s
  | none => succeed (body s)

/-! ### The reset input -/

/-- The reset input (70_reset_and_hazards.md R265, R267): the reset state, `DBUF` drawn anew. The block's parameters,
the faults recorded (log entry 10), the count of draws and what is still to happen outside the block are kept. -/
def resetInput (s : State) : State :=
  { State.reset with
    cfg := s.cfg
    epoch := s.epoch + 1
    draws := s.draws
    faults := s.faults
    inputs := s.inputs }

end Sys2Proof.Machine
end

