-- ==== Sys2Proof/Machine/Operands.lean ====
section
/-!
DEFINITION. The operand forms: the byte lanes of the 32-bit registers (20_memory.md R61), the words of `KEY`, `IV`,
`DIN` and `DOUT`, and the 16-byte units and byte lanes of `DBUF` (R66, R73).
-/

namespace Sys2Proof.Machine

/-- Byte lane `j` of a bus word: bits [8j+7:8j] (20_memory.md R61). -/
def lane (w : Word) (j : Nat) : Byte := w.extractLsb' (8 * j) 8

/-- A bus word as the four bytes of a register word, lane 0 first (20_memory.md R61). -/
def wordColumn (w : Word) : Column := ⟨lane w 0, lane w 1, lane w 2, lane w 3⟩

/-- `sum over j of zext_32(v[j]) << 8j` (20_memory.md R66). -/
def lanesWord : List Byte → Word
  | [] => 0
  | v :: vs => v.setWidth 32 ||| (lanesWord vs <<< 8)

/-- The four bytes of a register word as a bus word (20_memory.md R61). -/
def columnWord (c : Column) : Word := lanesWord [c.r0, c.r1, c.r2, c.r3]

/-- Word `k` of a 16-byte register: bytes 4k..4k+3 (10_state.md R22). -/
def blockWord (b : Block) (k : Fin 4) : Column :=
  match k with
  | 0 => b.c0
  | 1 => b.c1
  | 2 => b.c2
  | 3 => b.c3

/-- A 16-byte register with word `k` replaced. -/
def setBlockWord (b : Block) (k : Fin 4) (c : Column) : Block :=
  match k with
  | 0 => { b with c0 := c }
  | 1 => { b with c1 := c }
  | 2 => { b with c2 := c }
  | 3 => { b with c3 := c }

/-- `MemRead(a, n)` as its list of bytes (00_scope.md R17). -/
def memRead (s : State) (a : Nat) : (n : Nat) → List Byte
  | 0 => []
  | n + 1 => dbufByte s a :: memRead s (a + 1) n

/-- `MemRead(a, 16)` as a block (00_scope.md R17). -/
def memReadBlock (s : State) (a : Nat) : Block := blockOfBytes fun i => dbufByte s (a + i)

/-- `MemWrite(a, 16, b)` (00_scope.md R17). -/
def memWriteBlock (s : State) (a : Nat) (b : Block) : State := memWrite s a (blockBytes b)

/-- The `DBUF` address of input byte `i`: `SRC + i` (20_memory.md R60). -/
def srcAddr (s : State) (i : Nat) : Nat := s.src.toNat + i

/-- The `DBUF` address of output byte `i`: `DST + i` (20_memory.md R60). -/
def dstAddr (s : State) (i : Nat) : Nat := s.dst.toNat + i

/-- A `DBUF` window read of `size` bytes at buffer offset `a` (20_memory.md R66). -/
def dbufRead (s : State) (a size : Nat) : Word := lanesWord (memRead s a size)

/-- A `DBUF` window write of the low `size` bytes of `v` at buffer offset `a` (20_memory.md R66). -/
def dbufWrite (s : State) (a size : Nat) (v : Word) : State := memWrite s a ((List.range size).map (lane v))

end Sys2Proof.Machine
end

