-- ==== Sys2Proof/Machine/Flags.lean ====
section
/-!
DEFINITION. Every flag and what is computed from flags: `STATUS`, `ST_RESULT` and `CTRL` as the words the host sees
(10_state.md R22), `irq` (60_exceptions.md R245), the error codes (R235), and the checks that come before a command's
effect (R247).
-/

namespace Sys2Proof.Machine

/-- `STATUS.BUSY` (10_state.md R24, R26). -/
def busy (s : State) : Bool :=
  match s.seq with
  | .idle => false
  | .busy _ => true

/-- The interrupt output, `irq = CTRL.IE AND STATUS.DONE` (60_exceptions.md R245). -/
def irq (s : State) : Bool := s.ie && s.done

/-- The number of an error code (60_exceptions.md R235). -/
def errNumber : ErrCode → BitVec 4
  | .ok => 0
  | .invalidKeyLength => 1
  | .invalidInputLength => 2
  | .selfTestFailed => 3
  | .illegalCommand => 4
  | .contractViolation => 5
  | .rangeError => 6

/-- The bit of a direction (10_state.md R26: 0 = encryption, 1 = decryption). -/
def dirBit : Dir → Bool
  | .enc => false
  | .dec => true

/-- The bit `b` at position `n` of a word. -/
def bitAt (b : Bool) (n : Nat) : Word := BitVec.ofNat 32 b.toNat <<< n

/-- `STATUS` as read (10_state.md R26); the reserved bits are zero. -/
def statusWord (s : State) : Word :=
  bitAt (busy s) 0 ||| bitAt s.done 1 ||| bitAt s.ovr 2 ||| ((errNumber s.err).setWidth 32 <<< 4) |||
    bitAt s.ctxValid 8 ||| bitAt (dirBit s.ctxDir) 9 ||| (s.nr.setWidth 32 <<< 12)

/-- `CTRL` as read (10_state.md R23). -/
def ctrlWord (s : State) : Word := bitAt s.ie 0

/-- `OFFSET` as read (10_state.md R29). -/
def offsetWord (s : State) : Word := s.offset.setWidth 32

/-- `ST_RESULT` as read (10_state.md R37). -/
def stResultWord (s : State) : Word := s.stPass.setWidth 32 ||| bitAt s.stRan 16

/-- `ID` (10_state.md R38; 00_scope.md R3). -/
def idWord : Word := 0x41455331

/-- A host write to `STATUS` (10_state.md R26): a 1 in bit [1] clears `DONE`, a 1 in bit [2] clears `OVR`. -/
def clearStatus (v : Word) (s : State) : State :=
  { s with done := s.done && !v.getLsbD 1, ovr := s.ovr && !v.getLsbD 2 }

/-- `KEYLEN` names a supported key (00_scope.md R12). -/
def keylenOk (keylen : Nat) : Bool := keylen == 16 || keylen == 24 || keylen == 32

/-- A valid context of direction `d` (60_exceptions.md R243). -/
def contextOk (d : Dir) (s : State) : Bool := s.ctxValid && decide (s.ctxDir = d)

/-- `LEN mod 16 = 0` (60_exceptions.md R239). -/
def lengthOk (s : State) : Bool := decide (s.len.toNat % 16 = 0)

/-- Both buffers lie in `DBUF`, the sums on unbounded integers (60_exceptions.md R244; 92_eei_decisions.md D41). -/
def rangeOk (s : State) : Bool :=
  decide (s.src.toNat + s.len.toNat ≤ s.cfg.dbufSize) && decide (s.dst.toNat + s.len.toNat ≤ s.cfg.dbufSize)

/-- The check of an ECB command (42_block_transform.md R163, R164). -/
def ecbChecks (d : Dir) (s : State) : Option ErrCode :=
  if !contextOk d s then some .contractViolation else none

/-- `cbc_checks(d)`: the first failing check, in order (43_cbc.md R180). -/
def cbcChecks (d : Dir) (s : State) : Option ErrCode :=
  if !contextOk d s then some .contractViolation
  else if !lengthOk s then some .invalidInputLength
  else if !rangeOk s then some .rangeError
  else none

/-- `cfb_checks()`: the first failing check, in order (44_cfb128.md R195). Both directions need an encryption
context. -/
def cfbChecks (s : State) : Option ErrCode :=
  if !contextOk .enc s then some .contractViolation
  else if !rangeOk s then some .rangeError
  else none

end Sys2Proof.Machine
end

