-- ==== Sys2Proof/Machine/Bus.lean ====
section
/-!
DEFINITION. The host bus (20_memory.md): the register map (10_state.md R22), what each register gives and takes, the
`DBUF` window, and a whole bus access with its response, while idle and while busy.
-/

namespace Sys2Proof.Machine

/-- The registers of the map (10_state.md R22). -/
inductive Reg where
  | ctrl
  | cmd
  | status
  | len
  | src
  | dst
  | offset
  | stResult
  | key (k : Fin 8)
  | iv (k : Fin 4)
  | din (k : Fin 4)
  | dout (k : Fin 4)
  | id
  /-- Offsets 0x074 to 0xFFC (10_state.md R39). -/
  | reserved
deriving DecidableEq, Repr

/-- The register at an aligned offset of the register space (10_state.md R22). -/
def regAt : Nat → Reg
  | 0x000 => .ctrl
  | 0x004 => .cmd
  | 0x008 => .status
  | 0x00C => .len
  | 0x010 => .src
  | 0x014 => .dst
  | 0x018 => .offset
  | 0x01C => .stResult
  | 0x020 => .key 0
  | 0x024 => .key 1
  | 0x028 => .key 2
  | 0x02C => .key 3
  | 0x030 => .key 4
  | 0x034 => .key 5
  | 0x038 => .key 6
  | 0x03C => .key 7
  | 0x040 => .iv 0
  | 0x044 => .iv 1
  | 0x048 => .iv 2
  | 0x04C => .iv 3
  | 0x050 => .din 0
  | 0x054 => .din 1
  | 0x058 => .din 2
  | 0x05C => .din 3
  | 0x060 => .dout 0
  | 0x064 => .dout 1
  | 0x068 => .dout 2
  | 0x06C => .dout 3
  | 0x070 => .id
  | _ => .reserved

/-- What a read of a register returns when it is defined (10_state.md R22, R33, R38, R39). -/
def regRead (r : Reg) (s : State) : Word :=
  match r with
  | .ctrl => ctrlWord s
  | .cmd => 0
  | .status => statusWord s
  | .len => s.len
  | .src => s.src
  | .dst => s.dst
  | .offset => offsetWord s
  | .stResult => stResultWord s
  | .key _ => 0
  | .iv k => columnWord (blockWord s.iv k)
  | .din k => columnWord (blockWord s.din k)
  | .dout k => columnWord (blockWord s.dout k)
  | .id => idWord
  | .reserved => 0

/-- What a performed write to a register does (10_state.md R22 to R39): read-only and reserved registers ignore it. -/
def regWrite (r : Reg) (v : Word) (s : State) : State :=
  match r with
  | .ctrl => { s with ie := v.getLsbD 0 }
  | .cmd => issue v s
  | .status => clearStatus v s
  | .len => { s with len := v }
  | .src => { s with src := v }
  | .dst => { s with dst := v }
  | .offset => { s with offset := v.extractLsb' 0 4 }
  | .stResult => s
  | .key k => { s with key := s.key.set k (wordColumn v) }
  | .iv k => { s with iv := setBlockWord s.iv k (wordColumn v) }
  | .din k => { s with din := setBlockWord s.din k (wordColumn v) }
  | .dout _ => s
  | .id => s
  | .reserved => s

/-- A read of this register while busy returns its defined value (20_memory.md R71; for `DIN`, 92_eei_decisions.md
D17 and log entry 9). -/
def readDefinedWhileBusy : Reg → Bool
  | .ctrl => true
  | .cmd => true
  | .status => true
  | .len => true
  | .src => true
  | .dst => true
  | .offset => false
  | .stResult => false
  | .key _ => true
  | .iv _ => false
  | .din _ => true
  | .dout _ => false
  | .id => true
  | .reserved => true

/-- A write to this register while busy is dropped and sets `OVR` (20_memory.md R70). -/
def writeDroppedWhileBusy : Reg → Bool
  | .ctrl => false
  | .cmd => true
  | .status => false
  | .len => true
  | .src => true
  | .dst => true
  | .offset => true
  | .stResult => true
  | .key _ => true
  | .iv _ => true
  | .din _ => true
  | .dout _ => true
  | .id => false
  | .reserved => false

/-- The offset lies in the register space (20_memory.md R60). -/
def inRegSpace (offset : Nat) : Bool := decide (offset < 0x1000)

/-- A legal access to the register space: size 4 and aligned (20_memory.md R63). -/
def regLegal (offset size : Nat) : Bool := inRegSpace offset && size == 4 && offset % 4 == 0

/-- A legal access to the `DBUF` window (20_memory.md R66). -/
def dbufLegal (c : Config) (offset size : Nat) : Bool :=
  decide (0x1000 ≤ offset) && decide (offset ≤ 0x1FFF) && (size == 1 || size == 2 || size == 4) &&
    (offset - 0x1000) % size == 0 && decide (offset - 0x1000 + size ≤ c.dbufSize)

/-- The response `OKAY`, with a read's data. -/
def respondOkay (data : Option Word) (s : State) : State := { s with resp := some ⟨.okay, data⟩ }

/-- The response `ERROR`: no change of the block's state, and a recorded fault of the host's program that names the
access (20_memory.md R64; 60_exceptions.md R241). -/
def respondError (a : Access) (data : Option Word) (s : State) : State :=
  { s with resp := some ⟨.error, data⟩, faults := .busError a :: s.faults }

/-- A value the spec leaves unspecified, fresh at each draw (20_memory.md R71; 93_implementation_defined.md U3). -/
def freshWord (s : State) : Word := Config.readDraw s.draws

/-- The count of draws moved on, so that the next one is fresh. -/
def countDraw (s : State) : State := { s with draws := s.draws + 1 }

/-- A dropped write: `OVR <- 1` and nothing else, completed with `OKAY` (20_memory.md R70). -/
def dropWrite (s : State) : State := respondOkay none { s with ovr := true }

/-- A host read (20_memory.md R63, R65, R66, R67, R71). The data of an `ERROR` read outside the register space is not
stated: a fresh draw (log entry 8). -/
def hostRead (offset size : Nat) (s : State) : State :=
  if regLegal offset size then
    if busy s && !readDefinedWhileBusy (regAt offset) then respondOkay (some (freshWord s)) (countDraw s)
    else respondOkay (some (regRead (regAt offset) s)) s
  else if inRegSpace offset then respondError (.read offset size) (some 0) s
  else if dbufLegal s.cfg offset size then
    if busy s then respondOkay (some (freshWord s)) (countDraw s)
    else respondOkay (some (dbufRead s (offset - 0x1000) size)) s
  else respondError (.read offset size) (some (freshWord s)) (countDraw s)

/-- A host write (20_memory.md R63 to R67, R70). -/
def hostWrite (offset size : Nat) (data : Word) (s : State) : State :=
  if regLegal offset size then
    if busy s && writeDroppedWhileBusy (regAt offset) then dropWrite s
    else respondOkay none (regWrite (regAt offset) data s)
  else if dbufLegal s.cfg offset size then
    if busy s then dropWrite s
    else respondOkay none (dbufWrite s (offset - 0x1000) size data)
  else respondError (.write offset size data) none s

/-- A host bus access, one atomic step (20_memory.md R62, R69, R77). -/
def hostAccess (a : Access) (s : State) : State :=
  match a with
  | .read offset size => hostRead offset size s
  | .write offset size data => hostWrite offset size data s

end Sys2Proof.Machine
end

