-- ==== Sys2Proof/Machine/BlockTransform.lean ====
section
/-!
DEFINITION. The block transform (42_block_transform.md): `Cipher` and `InvCipher`, and the ECB commands.
-/

namespace Sys2Proof.Machine

/-- A full encryption round with round key `k` (42_block_transform.md R160). -/
def cipherRound (T : Tables) (b k : Block) : Block := addRoundKey (mixColumns (shiftRows (subBytes T b))) k

/-- `Cipher(nr, rk, b)` (42_block_transform.md R160). -/
def cipher (T : Tables) (nr : Nat) (rk : List Block) (b : Block) : Block :=
  let start := addRoundKey b (rk.getD 0 Block.zero)
  let inner := (List.range' 1 (nr - 1)).foldl (fun x r => cipherRound T x (rk.getD r Block.zero)) start
  addRoundKey (shiftRows (subBytes T inner)) (rk.getD nr Block.zero)

/-- A full decryption round with round key `k` (42_block_transform.md R161). -/
def invCipherRound (T : Tables) (b k : Block) : Block :=
  addRoundKey (invMixColumns (invShiftRows (invSubBytes T b))) k

/-- `InvCipher(nr, dk, b)` (42_block_transform.md R161). -/
def invCipher (T : Tables) (nr : Nat) (dk : List Block) (b : Block) : Block :=
  let start := addRoundKey b (dk.getD 0 Block.zero)
  let inner := (List.range' 1 (nr - 1)).foldl (fun x r => invCipherRound T x (dk.getD r Block.zero)) start
  addRoundKey (invShiftRows (invSubBytes T inner)) (dk.getD nr Block.zero)

/-- `Cipher(x[NR], x[RK], b)`: a block encrypted with the loaded context. -/
def encryptBlock (s : State) (b : Block) : Block := cipher s.cfg.tables s.nr.toNat s.rk.toList b

/-- `InvCipher(x[NR], x[RK], b)`: a block decrypted with the loaded context. -/
def decryptBlock (s : State) (b : Block) : Block := invCipher s.cfg.tables s.nr.toNat s.rk.toList b

/-! ### Commands -/

/-- `ECB_ENC` (42_block_transform.md R163). -/
def execEcbEnc (s : State) : Host.Outcome State Fault Refusal :=
  runChecked (ecbChecks .enc s) (fun s => setDout (encryptBlock s s.din) s) s

/-- `ECB_DEC` (42_block_transform.md R164). -/
def execEcbDec (s : State) : Host.Outcome State Fault Refusal :=
  runChecked (ecbChecks .dec s) (fun s => setDout (decryptBlock s s.din) s) s

end Sys2Proof.Machine
end

