-- ==== Sys2Proof/Machine/Cfb128.lean ====
section
/-!
DEFINITION. CFB128 mode (44_cfb128.md): `CFB_ENC` and `CFB_DEC`, a byte at a time, the keystream block held in `IV`
(R196) and refreshed lazily (R197).
-/

namespace Sys2Proof.Machine

/-- `if n = 0: x[IV] <- Cipher(x[NR], x[RK], x[IV])` (44_cfb128.md R197, R198). -/
def refreshKeystream (s : State) : State :=
  if s.offset = 0 then setIv (encryptBlock s s.iv) s else s

/-- The keystream byte at the offset, `x[IV][n]` (44_cfb128.md R196). -/
def keystreamByte (s : State) : Byte := blockByte s.iv s.offset.toNat

/-- `x[IV][n] <- c; n <- (n + 1) mod 16` (44_cfb128.md R198): feeds back the ciphertext byte and moves the offset on.
The pseudocode's local `n` is held in `OFFSET`, which it is written to at the end. -/
def feedBack (c : Byte) (s : State) : State :=
  { s with iv := setBlockByte s.iv s.offset.toNat c, offset := s.offset + 1 }

/-- Pass `i` of `CFB_ENC`'s loop (44_cfb128.md R198): the output byte is fed back. -/
def cfbEncByte (i : Nat) (s : State) : State :=
  let s := refreshKeystream s
  let p := dbufByte s (srcAddr s i)
  let c := p ^^^ keystreamByte s
  feedBack c (setDbufByte s (dstAddr s i) c)

/-- Pass `i` of `CFB_DEC`'s loop (44_cfb128.md R199): the input byte, captured before the output is written, is fed
back. `Cipher`, never `InvCipher`, is used. -/
def cfbDecByte (i : Nat) (s : State) : State :=
  let s := refreshKeystream s
  let c := dbufByte s (srcAddr s i)
  let p := c ^^^ keystreamByte s
  feedBack c (setDbufByte s (dstAddr s i) p)

/-! ### Commands -/

/-- `CFB_ENC` (44_cfb128.md R198). -/
def execCfbEnc (s : State) : Host.Outcome State Fault Refusal :=
  runChecked (cfbChecks s) (fun s => forUpTo cfbEncByte s.len.toNat s) s

/-- `CFB_DEC` (44_cfb128.md R199). -/
def execCfbDec (s : State) : Host.Outcome State Fault Refusal :=
  runChecked (cfbChecks s) (fun s => forUpTo cfbDecByte s.len.toNat s) s

end Sys2Proof.Machine
end

