-- ==== Sys2Proof/Machine/Cbc.lean ====
section
/-!
DEFINITION. CBC mode (43_cbc.md): `CBC_ENC` and `CBC_DEC` over `DBUF`, and the same chaining over a list of blocks
for the self-test (45_control.md R219).
-/

namespace Sys2Proof.Machine

/-- The ciphertext block of plaintext `p` under running IV `iv`, with `E` the block transform (43_cbc.md R181). -/
def cbcEncBlock (E : Block → Block) (iv p : Block) : Block := E (p.xor iv)

/-- The plaintext block of ciphertext `c` under running IV `iv`, with `D` the inverse transform (43_cbc.md R182). -/
def cbcDecBlock (D : Block → Block) (iv c : Block) : Block := (D c).xor iv

/-- Pass `j` of `CBC_ENC`'s loop (43_cbc.md R181). -/
def cbcEncUnit (j : Nat) (s : State) : State :=
  let p := memReadBlock s (srcAddr s (16 * j))
  let c := cbcEncBlock (encryptBlock s) s.iv p
  setIv c (memWriteBlock s (dstAddr s (16 * j)) c)

/-- Pass `j` of `CBC_DEC`'s loop (43_cbc.md R182): the new IV is the input block, read before the output is
written. -/
def cbcDecUnit (j : Nat) (s : State) : State :=
  let c := memReadBlock s (srcAddr s (16 * j))
  let p := cbcDecBlock (decryptBlock s) s.iv c
  setIv c (memWriteBlock s (dstAddr s (16 * j)) p)

/-! ### Commands -/

/-- `CBC_ENC` (43_cbc.md R181). -/
def execCbcEnc (s : State) : Host.Outcome State Fault Refusal :=
  runChecked (cbcChecks .enc s) (fun s => forUpTo cbcEncUnit (s.len.toNat / 16) s) s

/-- `CBC_DEC` (43_cbc.md R182). -/
def execCbcDec (s : State) : Host.Outcome State Fault Refusal :=
  runChecked (cbcChecks .dec s) (fun s => forUpTo cbcDecUnit (s.len.toNat / 16) s) s

/-! ### CBC over a list of blocks -/

/-- The ciphertext of a list of blocks from running IV `iv` (43_cbc.md R181). -/
def cbcEncList (E : Block → Block) (iv : Block) : List Block → List Block
  | [] => []
  | p :: ps => cbcEncBlock E iv p :: cbcEncList E (cbcEncBlock E iv p) ps

/-- The plaintext of a list of blocks from running IV `iv` (43_cbc.md R182). -/
def cbcDecList (D : Block → Block) (iv : Block) : List Block → List Block
  | [] => []
  | c :: cs => cbcDecBlock D iv c :: cbcDecList D c cs

end Sys2Proof.Machine
end

