-- ==== Sys2Proof/Machine/KeySchedule.lean ====
section
/-!
DEFINITION. The key schedule (41_key_schedule.md): key expansion, the two schedules, and `SETKEY_ENC`, `SETKEY_DEC`
and `CLEAR_CTX`.
-/

namespace Sys2Proof.Machine

/-! ### Key expansion -/

/-- RotWord (41_key_schedule.md R141). -/
def rotWord (a : Column) : Column := ⟨a.r1, a.r2, a.r3, a.r0⟩

/-- SubWord (41_key_schedule.md R141). -/
def subWord (T : Tables) (a : Column) : Column := mapColumn (sBox T) a

/-- What is added to `w[i-Nk]` to give `w[i]`, from `t = w[i-1]` (41_key_schedule.md R140). -/
def expansionTerm (T : Tables) (nk i : Nat) (t : Column) : Column :=
  if i % nk = 0 then (subWord T (rotWord t)).xor ⟨rcon T (i / nk), 0, 0, 0⟩
  else if nk = 8 ∧ i % nk = 4 then subWord T t
  else t

/-- The loop of `KeyExpansion` (41_key_schedule.md R140): `rev` is `w[i-1], ..., w[0]`, and `n` words are to come. -/
def expandWords (T : Tables) (nk : Nat) : (n i : Nat) → (rev : List Column) → List Column
  | 0, _, rev => rev.reverse
  | n + 1, i, rev =>
    expandWords T nk n (i + 1)
      (((rev.getD (nk - 1) Column.zero).xor (expansionTerm T nk i (rev.headD Column.zero))) :: rev)

/-- `Nr = Nk + 6` with `Nk = keylen / 4` (41_key_schedule.md R140; 00_scope.md R12). -/
def roundCount (keylen : Nat) : Nat := keylen / 4 + 6

/-- `KeyExpansion(K, keylen)`: the words `w[0 .. 4(Nr+1) - 1]` (41_key_schedule.md R140). `K` is given as its 4-byte
words `(K[4i], K[4i+1], K[4i+2], K[4i+3])`, of which the first `Nk` are used. -/
def keyExpansion (T : Tables) (K : List Column) (keylen : Nat) : List Column :=
  expandWords T (keylen / 4) (4 * (roundCount keylen + 1) - keylen / 4) (keylen / 4) (K.take (keylen / 4)).reverse

/-- Round keys from words, four at a time, the first word first (41_key_schedule.md R142). -/
def groupWords : List Column → List Block
  | a :: b :: c :: d :: rest => ⟨a, b, c, d⟩ :: groupWords rest
  | _ => []

/-- `EncSchedule(K, keylen)` (41_key_schedule.md R142). -/
def encSchedule (T : Tables) (K : List Column) (keylen : Nat) : Schedule :=
  { nr := roundCount keylen, keys := groupWords (keyExpansion T K keylen) }

/-- `dk[i]` from `ek[0..Nr]` (41_key_schedule.md R143). -/
def decKey (nr : Nat) (ek : List Block) (i : Nat) : Block :=
  if i = 0 then ek.getD nr Block.zero
  else if i = nr then ek.getD 0 Block.zero
  else invMixColumns (ek.getD (nr - i) Block.zero)

/-- `DecSchedule(K, keylen)` (41_key_schedule.md R143). -/
def decSchedule (T : Tables) (K : List Column) (keylen : Nat) : Schedule :=
  let enc := encSchedule T K keylen
  { nr := enc.nr, keys := (List.range (enc.nr + 1)).map (decKey enc.nr enc.keys) }

/-! ### Commands -/

/-- `SETKEY_ENC` (41_key_schedule.md R144, R147). -/
def execSetkeyEnc (keylen : Nat) (s : State) : Host.Outcome State Fault Refusal :=
  if keylenOk keylen then succeed (loadContext .enc (encSchedule s.cfg.tables s.key.toList keylen) s)
  else raise .invalidKeyLength (dropContext s)

/-- `SETKEY_DEC` (41_key_schedule.md R145, R147). -/
def execSetkeyDec (keylen : Nat) (s : State) : Host.Outcome State Fault Refusal :=
  if keylenOk keylen then succeed (loadContext .dec (decSchedule s.cfg.tables s.key.toList keylen) s)
  else raise .invalidKeyLength (dropContext s)

/-- `CLEAR_CTX` (41_key_schedule.md R148). -/
def execClearCtx (s : State) : Host.Outcome State Fault Refusal := succeed (clearContext s)

end Sys2Proof.Machine
end

