-- ==== Sys2Proof/Machine/Control.lean ====
section
/-!
DEFINITION. `NOP` and `SELF_TEST` with its vector table (45_control.md).
-/

namespace Sys2Proof.Machine

/-- `NOP` (45_control.md R217). -/
def execNop (s : State) : Host.Outcome State Fault Refusal := succeed s

/-! ### The vectors of the self-test (45_control.md R219) -/

/-- `000102..1f` as key words; checks 0 to 5 use its first 16, 24 or 32 bytes. -/
def ecbTestKey : List Column :=
  [hexColumn 0x00010203, hexColumn 0x04050607, hexColumn 0x08090a0b, hexColumn 0x0c0d0e0f,
   hexColumn 0x10111213, hexColumn 0x14151617, hexColumn 0x18191a1b, hexColumn 0x1c1d1e1f]

/-- The plaintext of checks 0 to 5. -/
def ecbTestPlain : Block := hexBlock 0x00112233445566778899aabbccddeeff

/-- The ciphertext of checks 0 and 1. -/
def ecbTest128 : Block := hexBlock 0x69c4e0d86a7b0430d8cdb78070b4c55a

/-- The ciphertext of checks 2 and 3. -/
def ecbTest192 : Block := hexBlock 0xdda97ca4864cdfe06eaf70a0ec0d7191

/-- The ciphertext of checks 4 and 5. -/
def ecbTest256 : Block := hexBlock 0x8ea2b7ca516745bfeafc49904b496089

/-- The key of checks 6 and 7. -/
def cbcTestKey128 : List Column :=
  [hexColumn 0x2b7e1516, hexColumn 0x28aed2a6, hexColumn 0xabf71588, hexColumn 0x09cf4f3c]

/-- The key of checks 8 and 9. -/
def cbcTestKey192 : List Column :=
  [hexColumn 0x8e73b0f7, hexColumn 0xda0e6452, hexColumn 0xc810f32b, hexColumn 0x809079e5,
   hexColumn 0x62f8ead2, hexColumn 0x522c6b7b]

/-- The key of checks 10 and 11. -/
def cbcTestKey256 : List Column :=
  [hexColumn 0x603deb10, hexColumn 0x15ca71be, hexColumn 0x2b73aef0, hexColumn 0x857d7781,
   hexColumn 0x1f352c07, hexColumn 0x3b6108d7, hexColumn 0x2d9810a3, hexColumn 0x0914dff4]

/-- The IV of checks 6 to 11. -/
def cbcTestIv : Block := hexBlock 0x000102030405060708090a0b0c0d0e0f

/-- P of the table. -/
def cbcTestPlain : List Block :=
  [hexBlock 0x6bc1bee22e409f96e93d7e117393172a, hexBlock 0xae2d8a571e03ac9c9eb76fac45af8e51,
   hexBlock 0x30c81c46a35ce411e5fbc1191a0a52ef, hexBlock 0xf69f2445df4f9b17ad2b417be66c3710]

/-- C128 of the table. -/
def cbcTest128 : List Block :=
  [hexBlock 0x7649abac8119b246cee98e9b12e9197d, hexBlock 0x5086cb9b507219ee95db113a917678b2,
   hexBlock 0x73bed6b8e3c1743b7116e69e22229516, hexBlock 0x3ff1caa1681fac09120eca307586e1a7]

/-- C192 of the table. -/
def cbcTest192 : List Block :=
  [hexBlock 0x4f021db243bc633d7178183a9fa071e8, hexBlock 0xb4d9ada9ad7dedf4e5e738763f69145a,
   hexBlock 0x571b242012fb7ae07fa9baac3df102e0, hexBlock 0x08b0e27988598881d920a9e64f5615cd]

/-- C256 of the table. -/
def cbcTest256 : List Block :=
  [hexBlock 0xf58c4c04d6e5f1ba779eabfb5f7bfbd6, hexBlock 0x9cfc4e967edb808d679f777bc6702c7d,
   hexBlock 0x39f23369a9d9bacfa530e26304231461, hexBlock 0xb2eb05e2c39be9fcda6c19078c6a9d1b]

/-! ### The checks -/

/-- A scratch encryption context's transform (45_control.md R220). -/
def scratchEnc (T : Tables) (K : List Column) (keylen : Nat) : Block → Block :=
  let sched := encSchedule T K keylen
  cipher T sched.nr sched.keys

/-- A scratch decryption context's transform (45_control.md R220). -/
def scratchDec (T : Tables) (K : List Column) (keylen : Nat) : Block → Block :=
  let sched := decSchedule T K keylen
  invCipher T sched.nr sched.keys

/-- The twelve checks, in order (45_control.md R219): each compares a computed output with the expected value. -/
def selfTestChecks (T : Tables) : List Bool :=
  [decide (scratchEnc T ecbTestKey 16 ecbTestPlain = ecbTest128),
   decide (scratchDec T ecbTestKey 16 ecbTest128 = ecbTestPlain),
   decide (scratchEnc T ecbTestKey 24 ecbTestPlain = ecbTest192),
   decide (scratchDec T ecbTestKey 24 ecbTest192 = ecbTestPlain),
   decide (scratchEnc T ecbTestKey 32 ecbTestPlain = ecbTest256),
   decide (scratchDec T ecbTestKey 32 ecbTest256 = ecbTestPlain),
   decide (cbcEncList (scratchEnc T cbcTestKey128 16) cbcTestIv cbcTestPlain = cbcTest128),
   decide (cbcDecList (scratchDec T cbcTestKey128 16) cbcTestIv cbcTest128 = cbcTestPlain),
   decide (cbcEncList (scratchEnc T cbcTestKey192 24) cbcTestIv cbcTestPlain = cbcTest192),
   decide (cbcDecList (scratchDec T cbcTestKey192 24) cbcTestIv cbcTest192 = cbcTestPlain),
   decide (cbcEncList (scratchEnc T cbcTestKey256 32) cbcTestIv cbcTestPlain = cbcTest256),
   decide (cbcDecList (scratchDec T cbcTestKey256 32) cbcTestIv cbcTest256 = cbcTestPlain)]

/-- `if check_i() passes: bits <- bits | (1 << i)`, from check `i` on (45_control.md R218). -/
def packBits (i : Nat) (bits : BitVec 12) : List Bool → BitVec 12
  | [] => bits
  | c :: cs => packBits (i + 1) (if c then bits ||| (1 <<< i) else bits) cs

/-- The `PASS` bits the self-test computes with the tables `T` (45_control.md R218). -/
def selfTestBits (T : Tables) : BitVec 12 := packBits 0 0 (selfTestChecks T)

/-- `x[ST_RESULT] <- zext_32(bits) | (1 << 16)` (45_control.md R218). -/
def writeStResult (bits : BitVec 12) (s : State) : State := { s with stPass := bits, stRan := true }

/-- `SELF_TEST` (45_control.md R218): `ST_RESULT` is written, and then a check that failed raises `SELF_TEST_FAILED`.
`VERBOSE` has no architectural effect (R222). -/
def execSelfTest (_verbose : Bool) (s : State) : Host.Outcome State Fault Refusal :=
  let bits := selfTestBits s.cfg.tables
  complete (if bits = 0xFFF then .ok else .selfTestFailed) (writeStResult bits s)

end Sys2Proof.Machine
end

