-- ==== Sys2Proof/Machine/Dispatch.lean ====
section
/-!
DEFINITION. `exec`: the completion step of a command (45_control.md R216), one arm per constructor of `Instr`.
-/

namespace Sys2Proof.Machine

def exec (i : Instr) (s : State) : Host.Outcome State Fault Refusal :=
  match i with
  | .nop => Sys2Proof.Machine.execNop s
  | .setkeyEnc keylen => Sys2Proof.Machine.execSetkeyEnc keylen s
  | .setkeyDec keylen => Sys2Proof.Machine.execSetkeyDec keylen s
  | .ecbEnc => Sys2Proof.Machine.execEcbEnc s
  | .ecbDec => Sys2Proof.Machine.execEcbDec s
  | .cbcEnc => Sys2Proof.Machine.execCbcEnc s
  | .cbcDec => Sys2Proof.Machine.execCbcDec s
  | .cfbEnc => Sys2Proof.Machine.execCfbEnc s
  | .cfbDec => Sys2Proof.Machine.execCfbDec s
  | .selfTest verbose => Sys2Proof.Machine.execSelfTest verbose s
  | .clearCtx => Sys2Proof.Machine.execClearCtx s

end Sys2Proof.Machine
end

