-- ==== Sys2Proof/Machine/Step.lean ====
section
/-!
DEFINITION. One step of the machine: the next thing the list of inputs names, a host access, a reset or the engine's
turn (20_memory.md R77; 60_exceptions.md R248; log entry 1). With nothing listed the engine has its turn, so every
command issued completes (45_control.md R216, R223).
-/

namespace Sys2Proof.Machine

/-- The engine's turn: completion of the command in flight (45_control.md R216). When idle the block waits
(70_reset_and_hazards.md R268). -/
def engineTurn (s : State) : Host.Outcome State Fault Refusal :=
  match fetch s with
  | none => .next s
  | some (.illegal _) => raise .illegalCommand s
  | some (.command i) => exec i s

/-- One step. -/
def step (s : State) : Host.Outcome State Fault Refusal :=
  match s.inputs with
  | [] => engineTurn s
  | .engine :: rest => engineTurn { s with inputs := rest }
  | .access a :: rest => .next (hostAccess a { s with inputs := rest })
  | .reset :: rest => .next (resetInput { s with inputs := rest })

/-- The state with an opcode-table word issued, as a write of it to `CMD` would (45_control.md R215), and the engine's
turn next: `step` then completes exactly that command (log entry 13). -/
def State.withFetchWord (s : State) (nbits w : Nat) : State :=
  let issued := issue (tableWord nbits w) s
  { issued with inputs := .engine :: issued.inputs }

end Sys2Proof.Machine
end

