-- ==== Sys2Proof/Machine/HostProgram.lean ====
section
/-!
DEFINITION. Host programs (30_encoding.md R99 to R101): each line is one bus access, and the pseudo-instructions
expand to the accesses the spec gives. A program is put before the block as its list of inputs.
-/

namespace Sys2Proof.Machine

/-- `R32 off` (30_encoding.md R99). -/
def r32 (offset : Nat) : Input := .access (.read offset 4)

/-- `W32 off, v` (30_encoding.md R99). -/
def w32 (offset : Nat) (v : Word) : Input := .access (.write offset 4 v)

/-- `W16 off, v` (30_encoding.md R99). -/
def w16 (offset : Nat) (v : Word) : Input := .access (.write offset 2 v)

/-- `W8 off, v` (30_encoding.md R99). -/
def w8 (offset : Nat) (v : Word) : Input := .access (.write offset 1 v)

/-- `DBUF+a` (30_encoding.md R99). -/
def dbufOffset (a : Nat) : Nat := 0x1000 + a

/-- `CMD <command>`: the single access `W32 CMD, w` (30_encoding.md R100). -/
def cmd (i : Instr) : Input := w32 0x004 (encode i)

/-- `W32 off+4k, word_k(h)` for the successive words of a byte string, given as its 4-byte words (30_encoding.md
R101; 20_memory.md R61). -/
def writeWords (offset : Nat) : List Column → List Input
  | [] => []
  | c :: cs => w32 offset (columnWord c) :: writeWords (offset + 4) cs

/-- `WKEY h`, h of 16, 24 or 32 bytes (30_encoding.md R101). -/
def wkey (h : List Column) : List Input := writeWords 0x020 h

/-- `WIV h` (30_encoding.md R101). -/
def wiv (h : Block) : List Input := writeWords 0x040 [h.c0, h.c1, h.c2, h.c3]

/-- `WDIN h` (30_encoding.md R101). -/
def wdin (h : Block) : List Input := writeWords 0x050 [h.c0, h.c1, h.c2, h.c3]

/-- `WBUF a, h`, a and the length of h multiples of 4 (30_encoding.md R101). -/
def wbuf (a : Nat) (h : List Column) : List Input := writeWords (dbufOffset a) h

/-- `ACK` (30_encoding.md R101). -/
def ack : Input := w32 0x008 0x00000006

/-- `SETKEY128` (30_encoding.md R101). -/
def setkey128 : Input := cmd (.setkeyEnc 16)

/-- `SETKEY192` (30_encoding.md R101). -/
def setkey192 : Input := cmd (.setkeyEnc 24)

/-- `SETKEY256` (30_encoding.md R101). -/
def setkey256 : Input := cmd (.setkeyEnc 32)

/-- `SETDKEY128` (30_encoding.md R101). -/
def setdkey128 : Input := cmd (.setkeyDec 16)

/-- `SETDKEY192` (30_encoding.md R101). -/
def setdkey192 : Input := cmd (.setkeyDec 24)

/-- `SETDKEY256` (30_encoding.md R101). -/
def setdkey256 : Input := cmd (.setkeyDec 32)

/-- The values read by one `WAITIDLE`: it repeats its read while bit [0] of the value is 1 and ends on the first read
with `BUSY = 0` (30_encoding.md R101). -/
def waitIdleEnds : List Word → Bool
  | [] => false
  | v :: vs => if v.getLsbD 0 then waitIdleEnds vs else vs.isEmpty

/-- The accesses `WAITIDLE` makes when the command in flight completes after `polls` reads of `STATUS` have found
`BUSY = 1` (30_encoding.md R101; 45_control.md R223). -/
def waitIdle (polls : Nat) : List Input := List.replicate polls (r32 0x008) ++ [.engine, r32 0x008]

/-- The data of the reads among the next `n` steps, the first first. -/
def readValues : (n : Nat) → State → List Word
  | 0, _ => []
  | n + 1, s =>
    match step s with
    | .next t =>
      match s.inputs, t.resp with
      | .access (.read _ _) :: _, some ⟨_, some v⟩ => v :: readValues n t
      | _, _ => readValues n t
    | .fault _ => []
    | .refused _ => []

/-- The block after reset with a program before it (70_reset_and_hazards.md R284). -/
def launch (program : List Input) : State := { State.reset with inputs := program }

end Sys2Proof.Machine
end

