-- ==== Sys2Proof/Safety.lean ====
section
/-!
DEFINITION. What counts as a clean and as a finished run, in the terms claims about a host program use, and the
invariants every step keeps.
-/

namespace Sys2Proof.Safety

open Sys2Proof.Machine

/-- No fault of the host's program is recorded and no write was dropped: the premises of a claim about a program
(93_implementation_defined.md U1, U11, U12; 70_reset_and_hazards.md R273). -/
def clean (s : State) : Bool := s.faults.isEmpty && !s.ovr

/-- The input is a bus access of the host's program. -/
def isAccess : Input → Bool
  | .access _ => true
  | .reset => false
  | .engine => false

/-- The end of a run: the program's last bus access has completed and `SEQ = IDLE` (70_reset_and_hazards.md R283). A
reset or an engine turn that is still listed is no bus access of the program. -/
def ended (s : State) : Bool := !s.inputs.any isAccess && !busy s

/-- `DBUF` keeps its canonical form and lies within `DBUF_SIZE` (10_state.md R40). -/
def memoryWf (s : State) : Prop := Memory.wf s.cfg.dbufSize s.dbuf = true

/-- `NR` is 0, 10, 12 or 14, and not 0 while a context is valid (10_state.md R26, R30). -/
def roundCountLegal (s : State) : Prop :=
  (s.nr = 0 ∨ s.nr = 10 ∨ s.nr = 12 ∨ s.nr = 14) ∧ (s.ctxValid = true → s.nr ≠ 0)

/-- `DONE` and `BUSY` are never both 1 (10_state.md R26: `DONE` is set at completion and cleared at issue). -/
def doneNotBusy (s : State) : Prop := s.done = true → s.seq = .idle

/-- The `PASS` bits are 0 until a self-test has run (10_state.md R37). -/
def passNeedsRun (s : State) : Prop := s.stRan = false → s.stPass = 0

/-- A valid context is the schedule, in its direction, of some key of a legal length: its round count and its round
keys `RK[0..NR]` (10_state.md R30, R32). -/
def contextScheduled (s : State) : Prop :=
  s.ctxValid = true →
    ∃ (K : Vector Column 8) (keylen : Nat), keylenOk keylen = true ∧ s.nr.toNat = roundCount keylen ∧
      ∀ r, r ≤ roundCount keylen →
        s.rk.toList.getD r Block.zero =
          (match s.ctxDir with
           | .enc => (encSchedule s.cfg.tables K.toList keylen).keys
           | .dec => (decSchedule s.cfg.tables K.toList keylen).keys).getD r Block.zero

end Sys2Proof.Safety
end

