-- ==== Sys2Proof/Certificates/Slice0/Obligations.lean ====
section
/-!
DEFINITION. The statements for the provers, each over all states of the machine. Those about `DBUF` are stated through
the read of one byte. What a loop of a mode computes is stated against a run of the spec's pseudocode over a plain
function from addresses to bytes.
-/

namespace Sys2Proof.Claims

open Sys2Proof.Machine

/-! ### Words used in the statements -/

/-- Slot `r` of a round-key table. -/
def slot (rk : Vector Block 15) (r : Nat) : Block := rk.toList.getD r Block.zero

/-- `KEYk`. -/
def keyWord (s : State) (k : Nat) : Column := s.key.toList.getD k Column.zero

/-- A legal `DBUF` window access (20_memory.md R66). -/
def DbufLegal (s : State) (offset size : Nat) : Prop :=
  0x1000 ≤ offset ∧ offset ≤ 0x1FFF ∧ (size = 1 ∨ size = 2 ∨ size = 4) ∧ (offset - 0x1000) % size = 0 ∧
    offset - 0x1000 + size ≤ s.cfg.dbufSize

/-- The words `decode` maps to `ILLEGAL` (60_exceptions.md R242). -/
def IllegalWord (w : Word) : Prop :=
  11 ≤ (w.extractLsb' 0 4).toNat ∨ w.extractLsb' 4 4 ≠ 0 ∨ w.extractLsb' 14 2 ≠ 0 ∨ w.extractLsb' 17 15 ≠ 0 ∨
    (w.extractLsb' 8 6 ≠ 0 ∧ w.extractLsb' 0 4 ≠ 1 ∧ w.extractLsb' 0 4 ≠ 2) ∨
    (w.getLsbD 16 = true ∧ w.extractLsb' 0 4 ≠ 9)

/-- A valid context of direction `d` is loaded. -/
def HasContext (s : State) (d : Dir) : Prop := s.ctxValid = true ∧ s.ctxDir = d

/-- Both buffers of a CBC or CFB128 command lie in `DBUF` (60_exceptions.md R244). -/
def InRange (s : State) : Prop :=
  s.src.toNat + s.len.toNat ≤ s.cfg.dbufSize ∧ s.dst.toNat + s.len.toNat ≤ s.cfg.dbufSize

/-- The input and the output buffer are the same or do not overlap. -/
def InPlaceOrApart (s : State) : Prop :=
  s.src = s.dst ∨ s.src.toNat + s.len.toNat ≤ s.dst.toNat ∨ s.dst.toNat + s.len.toNat ≤ s.src.toNat

/-! ### The mode loops over a plain memory -/

/-- The memory with the sixteen bytes of `b` at `a`. -/
def overlay (m : Nat → Byte) (a : Nat) (b : Block) : Nat → Byte :=
  fun x => if a ≤ x ∧ x < a + 16 then blockByte b (x - a) else m x

/-- The first `n` passes of `CBC_ENC`'s loop (43_cbc.md R181): the memory and the running IV after them. -/
def cbcEncRun (E : Block → Block) (src dst : Nat) (m : Nat → Byte) (iv : Block) : Nat → (Nat → Byte) × Block
  | 0 => (m, iv)
  | n + 1 =>
    let r := cbcEncRun E src dst m iv n
    let c := E ((blockOfBytes fun i => r.1 (src + 16 * n + i)).xor r.2)
    (overlay r.1 (dst + 16 * n) c, c)

/-- The first `n` passes of `CBC_DEC`'s loop (43_cbc.md R182). -/
def cbcDecRun (D : Block → Block) (src dst : Nat) (m : Nat → Byte) (iv : Block) : Nat → (Nat → Byte) × Block
  | 0 => (m, iv)
  | n + 1 =>
    let r := cbcDecRun D src dst m iv n
    let c := blockOfBytes fun i => r.1 (src + 16 * n + i)
    (overlay r.1 (dst + 16 * n) ((D c).xor r.2), c)

/-- A CFB128 loop under way: the memory, `IV` and the offset. -/
structure CfbRun where
  mem : Nat → Byte
  iv : Block
  offset : Nat

/-- The first `n` passes of a CFB128 loop (44_cfb128.md R198, R199); `enc` says which byte is fed back. -/
def cfbRun (enc : Bool) (E : Block → Block) (src dst : Nat) (m : Nat → Byte) (iv : Block) (o : Nat) : Nat → CfbRun
  | 0 => { mem := m, iv := iv, offset := o }
  | n + 1 =>
    let r := cfbRun enc E src dst m iv o n
    let k := if r.offset = 0 then E r.iv else r.iv
    let x := r.mem (src + n)
    let y := x ^^^ blockByte k r.offset
    { mem := fun a => if a = dst + n then y else r.mem a
      iv := setBlockByte k r.offset (if enc then y else x)
      offset := (r.offset + 1) % 16 }

/-- The first failing check of what `decode` gave, in the order of 60_exceptions.md R247; `ok` if none fails. -/
def firstError (d : Decoded) (s : State) : ErrCode :=
  let cbc (dir : Dir) : ErrCode :=
    if ¬ (s.ctxValid = true ∧ s.ctxDir = dir) then .contractViolation
    else if s.len.toNat % 16 ≠ 0 then .invalidInputLength
    else if ¬ (s.src.toNat + s.len.toNat ≤ s.cfg.dbufSize ∧ s.dst.toNat + s.len.toNat ≤ s.cfg.dbufSize) then .rangeError
    else .ok
  let cfb : ErrCode :=
    if ¬ (s.ctxValid = true ∧ s.ctxDir = .enc) then .contractViolation
    else if ¬ (s.src.toNat + s.len.toNat ≤ s.cfg.dbufSize ∧ s.dst.toNat + s.len.toNat ≤ s.cfg.dbufSize) then .rangeError
    else .ok
  let ecb (dir : Dir) : ErrCode := if ¬ (s.ctxValid = true ∧ s.ctxDir = dir) then .contractViolation else .ok
  let setkey (keylen : Nat) : ErrCode := if keylen = 16 ∨ keylen = 24 ∨ keylen = 32 then .ok else .invalidKeyLength
  match d with
  | .illegal _ => .illegalCommand
  | .command .nop => .ok
  | .command (.setkeyEnc keylen) => setkey keylen
  | .command (.setkeyDec keylen) => setkey keylen
  | .command .ecbEnc => ecb .enc
  | .command .ecbDec => ecb .dec
  | .command .cbcEnc => cbc .enc
  | .command .cbcDec => cbc .dec
  | .command .cfbEnc => cfb
  | .command .cfbDec => cfb
  | .command (.selfTest _) => if (selfTestChecks s.cfg.tables).all id then .ok else .selfTestFailed
  | .command .clearCtx => .ok

end Sys2Proof.Claims

open Sys2Proof Sys2Proof.Machine Sys2Proof.Claims Sys2Proof.Safety

/-! ### Encoding and decoding -/

/-- 30_encoding.md section 3: the decoder reads back every well-formed command. -/
def Obligations.DecodeReadsEveryEncodedCommand : Prop :=
  ∀ i : Instr, i.WellFormed → decode (encode i) = .command i

/-- 30_encoding.md section 3: a word that decodes to a command is that command's one encoding. -/
def Obligations.EveryCommandHasOneWord : Prop :=
  ∀ (w : Word) (i : Instr), decode w = .command i → i.WellFormed ∧ encode i = w

/-- 60_exceptions.md R242, 30_encoding.md R96: illegal words complete with code 4 and no other effect, and no other word
is illegal. -/
def Obligations.IllegalWordsCompleteWithCode4 : Prop :=
  (∀ (s : State) (w : Word), s.seq = .busy w → s.inputs = [] → IllegalWord w →
    step s = .next { s with err := .illegalCommand, seq := .idle, done := true }) ∧
  (∀ (s : State) (w : Word) (rest : List Input), s.seq = .busy w → s.inputs = .engine :: rest → IllegalWord w →
    step s = .next { s with inputs := rest, err := .illegalCommand, seq := .idle, done := true }) ∧
  (∀ w : Word, ¬ IllegalWord w → ∃ i, decode w = .command i)

/-- 30_encoding.md section 4: the example words. -/
def Obligations.ExampleWordsDecode : Prop :=
  decode 0x00001001 = .command (.setkeyEnc 16) ∧ decode 0x00001801 = .command (.setkeyEnc 24) ∧
  decode 0x00002001 = .command (.setkeyEnc 32) ∧ decode 0x00001002 = .command (.setkeyDec 16) ∧
  decode 0x00001401 = .command (.setkeyEnc 20) ∧ decode 0x00000003 = .command .ecbEnc ∧
  decode 0x00000008 = .command .cfbDec ∧ decode 0x00010009 = .command (.selfTest true) ∧
  decode 0x0000000A = .command .clearCtx

/-! ### Steps, issue and the host bus -/

/-- 45_control.md section 1: the engine's turn completes the command in flight; with none in flight the block waits; and
`withFetchWord` makes the next step complete the word's command. The list of inputs and `withFetchWord` are the model's
(log entries 1 and 13). -/
def Obligations.StepCompletesTheDecodedCommand : Prop :=
  (∀ (s : State) (w : Word) (i : Instr), s.seq = .busy w → decode w = .command i →
    (s.inputs = [] → step s = exec i s) ∧
    (∀ rest, s.inputs = .engine :: rest → step s = exec i { s with inputs := rest })) ∧
  (∀ s : State, s.seq = .idle →
    (s.inputs = [] → step s = .next s) ∧
    (∀ rest, s.inputs = .engine :: rest → step s = .next { s with inputs := rest })) ∧
  (∀ (s : State) (w : Nat) (i : Instr), decode (tableWord 32 w) = .command i →
    step (s.withFetchWord 32 w) = exec i { s with seq := .busy (tableWord 32 w), done := false })

/-- 45_control.md R215. -/
def Obligations.CmdWriteIssues : Prop :=
  (∀ (s : State) (w : Word) (rest : List Input), s.seq = .idle → s.inputs = .access (.write 0x004 4 w) :: rest →
    step s = .next { s with inputs := rest, seq := .busy w, done := false, resp := some ⟨.okay, none⟩ }) ∧
  (∀ (s : State) (u w : Word) (rest : List Input), s.seq = .busy u → s.inputs = .access (.write 0x004 4 w) :: rest →
    step s = .next { s with inputs := rest, ovr := true, resp := some ⟨.okay, none⟩ })

/-- 20_memory.md R70. -/
def Obligations.BusyWritesAreDropped : Prop :=
  ∀ (s : State) (u v : Word) (offset size : Nat) (rest : List Input),
    s.seq = .busy u → s.inputs = .access (.write offset size v) :: rest →
    ((size = 4 ∧ offset % 4 = 0 ∧ (offset = 0x004 ∨ (0x00C ≤ offset ∧ offset ≤ 0x06C))) ∨ DbufLegal s offset size →
      step s = .next { s with inputs := rest, ovr := true, resp := some ⟨.okay, none⟩ }) ∧
    (size = 4 → offset = 0x000 →
      step s = .next { s with inputs := rest, ie := v.getLsbD 0, resp := some ⟨.okay, none⟩ }) ∧
    (size = 4 → offset = 0x008 →
      step s = .next { s with inputs := rest, done := s.done && !v.getLsbD 1, ovr := s.ovr && !v.getLsbD 2,
                              resp := some ⟨.okay, none⟩ }) ∧
    (size = 4 → offset % 4 = 0 → 0x070 ≤ offset → offset ≤ 0xFFC →
      step s = .next { s with inputs := rest, resp := some ⟨.okay, none⟩ })

/-- 20_memory.md R71. Nothing is said about an unspecified value; the count of draws is the model's (log entry 3). -/
def Obligations.BusyReadsAreUnspecified : Prop :=
  ∀ (s : State) (u : Word) (offset size : Nat) (rest : List Input),
    s.seq = .busy u → s.inputs = .access (.read offset size) :: rest →
    ((size = 4 ∧ offset % 4 = 0 ∧ (offset = 0x018 ∨ offset = 0x01C ∨ (0x040 ≤ offset ∧ offset ≤ 0x04C) ∨
        (0x060 ≤ offset ∧ offset ≤ 0x06C))) ∨ DbufLegal s offset size →
      ∃ t r, step s = .next t ∧ t = { s with inputs := rest, draws := t.draws, resp := some ⟨.okay, some r⟩ }) ∧
    (size = 4 → offset % 4 = 0 →
      (offset = 0x000 → step s = .next { s with inputs := rest, resp := some ⟨.okay, some (ctrlWord s)⟩ }) ∧
      (offset = 0x008 → step s = .next { s with inputs := rest, resp := some ⟨.okay, some (statusWord s)⟩ }) ∧
      (offset = 0x00C → step s = .next { s with inputs := rest, resp := some ⟨.okay, some s.len⟩ }) ∧
      (offset = 0x010 → step s = .next { s with inputs := rest, resp := some ⟨.okay, some s.src⟩ }) ∧
      (offset = 0x014 → step s = .next { s with inputs := rest, resp := some ⟨.okay, some s.dst⟩ }) ∧
      (offset = 0x070 → step s = .next { s with inputs := rest, resp := some ⟨.okay, some 0x41455331⟩ }) ∧
      (offset = 0x004 ∨ (0x020 ≤ offset ∧ offset ≤ 0x03C) ∨ (0x074 ≤ offset ∧ offset ≤ 0xFFC) →
        step s = .next { s with inputs := rest, resp := some ⟨.okay, some 0⟩ }))

/-- 10_state.md section 2: what an idle block's registers read as (the byte-array registers are in
`RegisterByteOrder`). -/
def Obligations.IdleRegisterReads : Prop :=
  ∀ (s : State) (offset : Nat) (rest : List Input),
    s.seq = .idle → s.inputs = .access (.read offset 4) :: rest →
    (offset = 0x000 →
      step s = .next { s with inputs := rest, resp := some ⟨.okay, some (BitVec.ofNat 32 s.ie.toNat)⟩ }) ∧
    (offset = 0x008 → step s = .next { s with inputs := rest, resp := some ⟨.okay, some (statusWord s)⟩ }) ∧
    (offset = 0x00C → step s = .next { s with inputs := rest, resp := some ⟨.okay, some s.len⟩ }) ∧
    (offset = 0x010 → step s = .next { s with inputs := rest, resp := some ⟨.okay, some s.src⟩ }) ∧
    (offset = 0x014 → step s = .next { s with inputs := rest, resp := some ⟨.okay, some s.dst⟩ }) ∧
    (offset = 0x018 →
      step s = .next { s with inputs := rest, resp := some ⟨.okay, some (s.offset.setWidth 32)⟩ }) ∧
    (offset = 0x01C →
      ∃ r : Word, step s = .next { s with inputs := rest, resp := some ⟨.okay, some r⟩ } ∧
        r.extractLsb' 0 12 = s.stPass ∧ r.extractLsb' 12 4 = 0 ∧ r.getLsbD 16 = s.stRan ∧ r.extractLsb' 17 15 = 0) ∧
    (offset = 0x070 → step s = .next { s with inputs := rest, resp := some ⟨.okay, some 0x41455331⟩ }) ∧
    (offset % 4 = 0 → (offset = 0x004 ∨ (0x020 ≤ offset ∧ offset ≤ 0x03C) ∨ (0x074 ≤ offset ∧ offset ≤ 0xFFC)) →
      step s = .next { s with inputs := rest, resp := some ⟨.okay, some 0⟩ })

/-- 10_state.md sections 2 and 4: what a write to an idle block's registers changes (`CMD` is in `CmdWriteIssues`, the
byte-array registers are in `RegisterByteOrder`). -/
def Obligations.IdleRegisterWrites : Prop :=
  ∀ (s : State) (v : Word) (offset : Nat) (rest : List Input),
    s.seq = .idle → s.inputs = .access (.write offset 4 v) :: rest →
    (offset = 0x000 →
      step s = .next { s with inputs := rest, ie := v.getLsbD 0, resp := some ⟨.okay, none⟩ }) ∧
    (offset = 0x008 →
      step s = .next { s with inputs := rest, done := s.done && !v.getLsbD 1, ovr := s.ovr && !v.getLsbD 2,
                              resp := some ⟨.okay, none⟩ }) ∧
    (offset = 0x00C → step s = .next { s with inputs := rest, len := v, resp := some ⟨.okay, none⟩ }) ∧
    (offset = 0x010 → step s = .next { s with inputs := rest, src := v, resp := some ⟨.okay, none⟩ }) ∧
    (offset = 0x014 → step s = .next { s with inputs := rest, dst := v, resp := some ⟨.okay, none⟩ }) ∧
    (offset = 0x018 →
      step s = .next { s with inputs := rest, offset := v.extractLsb' 0 4, resp := some ⟨.okay, none⟩ }) ∧
    (offset % 4 = 0 → (offset = 0x01C ∨ (0x060 ≤ offset ∧ offset ≤ 0xFFC)) →
      step s = .next { s with inputs := rest, resp := some ⟨.okay, none⟩ })

/-- 10_state.md section 2: the fields of `STATUS`; the error code's number is that of 60_exceptions.md section 1. -/
def Obligations.StatusWordFields : Prop :=
  ∀ s : State,
    ((statusWord s).getLsbD 0 = true ↔ ∃ w, s.seq = .busy w) ∧
    (statusWord s).getLsbD 1 = s.done ∧ (statusWord s).getLsbD 2 = s.ovr ∧ (statusWord s).getLsbD 3 = false ∧
    (statusWord s).extractLsb' 4 4 =
      (match s.err with
       | .ok => 0
       | .invalidKeyLength => 1
       | .invalidInputLength => 2
       | .selfTestFailed => 3
       | .illegalCommand => 4
       | .contractViolation => 5
       | .rangeError => 6) ∧
    (statusWord s).getLsbD 8 = s.ctxValid ∧
    ((statusWord s).getLsbD 9 = true ↔ s.ctxDir = .dec) ∧
    (statusWord s).extractLsb' 10 2 = 0 ∧
    (statusWord s).extractLsb' 12 4 = s.nr ∧ (statusWord s).extractLsb' 16 16 = 0

/-- 20_memory.md section 3: a read changes nothing of the block, only the model's own response, count of draws and
recorded bus error; and a read of `DIN` while busy returns the register's bytes, which is the model's reading of
92_eei_decisions.md D17 (log entry 9). -/
def Obligations.ReadsHaveNoSideEffects : Prop :=
  (∀ (s t : State) (offset size : Nat) (rest : List Input),
    s.inputs = .access (.read offset size) :: rest → step s = .next t →
    t = { s with inputs := rest, resp := t.resp, draws := t.draws, faults := t.faults }) ∧
  (∀ (s : State) (w : Word) (k : Nat) (rest : List Input), s.seq = .busy w → k < 4 →
    s.inputs = .access (.read (0x050 + 4 * k) 4) :: rest →
    ∃ r : Word, step s = .next { s with inputs := rest, resp := some ⟨.okay, some r⟩ } ∧
      ∀ j, j < 4 → r.extractLsb' (8 * j) 8 = blockByte s.din (4 * k + j))

/-- 20_memory.md R63, with the fault of 60_exceptions.md R241 in the model's list (log entry 11). -/
def Obligations.RegisterSpaceAlignment : Prop :=
  (∀ (s : State) (offset size : Nat) (rest : List Input),
    offset < 0x1000 → (size ≠ 4 ∨ offset % 4 ≠ 0) → s.inputs = .access (.read offset size) :: rest →
    step s = .next { s with inputs := rest, resp := some ⟨.error, some 0⟩,
                            faults := .busError (.read offset size) :: s.faults }) ∧
  (∀ (s : State) (offset size : Nat) (v : Word) (rest : List Input),
    offset < 0x1000 → (size ≠ 4 ∨ offset % 4 ≠ 0) → s.inputs = .access (.write offset size v) :: rest →
    step s = .next { s with inputs := rest, resp := some ⟨.error, none⟩,
                            faults := .busError (.write offset size v) :: s.faults })

/-- 20_memory.md R65, R67, with the fault of 60_exceptions.md R241 in the model's list (log entry 11): an access outside
the register space that is no legal `DBUF` access. The data of such a read is not stated, so nothing is said about it
(log entry 8). -/
def Obligations.UndecodedAccessesAnswerError : Prop :=
  (∀ (s : State) (offset size : Nat) (rest : List Input),
    0x1000 ≤ offset → ¬ DbufLegal s offset size → s.inputs = .access (.read offset size) :: rest →
    ∃ t data, step s = .next t ∧
      t = { s with inputs := rest, draws := t.draws, resp := some ⟨.error, some data⟩,
                   faults := .busError (.read offset size) :: s.faults }) ∧
  (∀ (s : State) (offset size : Nat) (v : Word) (rest : List Input),
    0x1000 ≤ offset → ¬ DbufLegal s offset size → s.inputs = .access (.write offset size v) :: rest →
    step s = .next { s with inputs := rest, resp := some ⟨.error, none⟩,
                            faults := .busError (.write offset size v) :: s.faults })

/-- 20_memory.md R66, while idle. -/
def Obligations.DbufWindowAccess : Prop :=
  (∀ (s : State) (offset size : Nat) (v : Word) (rest : List Input),
    s.seq = .idle → DbufLegal s offset size → s.inputs = .access (.write offset size v) :: rest →
    ∃ t, step s = .next t ∧ t = { s with inputs := rest, dbuf := t.dbuf, resp := some ⟨.okay, none⟩ } ∧
      (∀ j, j < size → dbufByte t (offset - 0x1000 + j) = v.extractLsb' (8 * j) 8) ∧
      (∀ a, a < offset - 0x1000 ∨ offset - 0x1000 + size ≤ a → dbufByte t a = dbufByte s a)) ∧
  (∀ (s : State) (offset size : Nat) (rest : List Input),
    s.seq = .idle → DbufLegal s offset size → s.inputs = .access (.read offset size) :: rest →
    ∃ r : Word, step s = .next { s with inputs := rest, resp := some ⟨.okay, some r⟩ } ∧
      r.toNat = ∑ j ∈ Finset.range size, (dbufByte s (offset - 0x1000 + j)).toNat * 2 ^ (8 * j))

/-- 20_memory.md R68: after a legal write, a legal read of any width sees the written bytes in their lanes. -/
def Obligations.DbufMixedWidthView : Prop :=
  ∀ (s : State) (o₁ n₁ o₂ n₂ : Nat) (v : Word) (rest : List Input),
    s.seq = .idle → DbufLegal s o₁ n₁ → DbufLegal s o₂ n₂ →
    s.inputs = .access (.write o₁ n₁ v) :: .access (.read o₂ n₂) :: rest →
    ∃ t u r, step s = .next t ∧ step t = .next u ∧ u.resp = some ⟨.okay, some r⟩ ∧
      (∀ j, j < n₂ → r.extractLsb' (8 * j) 8 =
        if o₁ ≤ o₂ + j ∧ o₂ + j < o₁ + n₁ then v.extractLsb' (8 * (o₂ + j - o₁)) 8
        else dbufByte s (o₂ + j - 0x1000)) ∧
      (∀ j, n₂ ≤ j → j < 4 → r.extractLsb' (8 * j) 8 = 0)

/-- 20_memory.md R61, while idle: byte `A[4k+j]` is bits [8j+7:8j] of word `Ak`, for writes to `KEY`, `IV` and `DIN` and
for reads of `IV`, `DIN` and `DOUT`. -/
def Obligations.RegisterByteOrder : Prop :=
  (∀ (s : State) (k : Nat) (v : Word) (rest : List Input), s.seq = .idle → k < 8 →
    s.inputs = .access (.write (0x020 + 4 * k) 4 v) :: rest →
    ∃ t, step s = .next t ∧ t = { s with inputs := rest, key := t.key, resp := some ⟨.okay, none⟩ } ∧
      (∀ j, j < 4 → columnByte (keyWord t k) j = v.extractLsb' (8 * j) 8) ∧
      (∀ m, m < 8 → m ≠ k → keyWord t m = keyWord s m)) ∧
  (∀ (s : State) (k : Nat) (v : Word) (rest : List Input), s.seq = .idle → k < 4 →
    s.inputs = .access (.write (0x040 + 4 * k) 4 v) :: rest →
    ∃ t, step s = .next t ∧ t = { s with inputs := rest, iv := t.iv, resp := some ⟨.okay, none⟩ } ∧
      (∀ j, j < 4 → blockByte t.iv (4 * k + j) = v.extractLsb' (8 * j) 8) ∧
      (∀ i, i < 16 → i / 4 ≠ k → blockByte t.iv i = blockByte s.iv i)) ∧
  (∀ (s : State) (k : Nat) (v : Word) (rest : List Input), s.seq = .idle → k < 4 →
    s.inputs = .access (.write (0x050 + 4 * k) 4 v) :: rest →
    ∃ t, step s = .next t ∧ t = { s with inputs := rest, din := t.din, resp := some ⟨.okay, none⟩ } ∧
      (∀ j, j < 4 → blockByte t.din (4 * k + j) = v.extractLsb' (8 * j) 8) ∧
      (∀ i, i < 16 → i / 4 ≠ k → blockByte t.din i = blockByte s.din i)) ∧
  (∀ (s : State) (k base : Nat) (b : Block) (rest : List Input), s.seq = .idle → k < 4 →
    (base = 0x040 ∧ b = s.iv) ∨ (base = 0x050 ∧ b = s.din) ∨ (base = 0x060 ∧ b = s.dout) →
    s.inputs = .access (.read (base + 4 * k) 4) :: rest →
    ∃ r : Word, step s = .next { s with inputs := rest, resp := some ⟨.okay, some r⟩ } ∧
      ∀ j, j < 4 → r.extractLsb' (8 * j) 8 = blockByte b (4 * k + j))

/-- 60_exceptions.md R245, R246: `irq` at every instant, and what makes it rise and fall. -/
def Obligations.IrqRisesAndFalls : Prop :=
  (∀ s : State, irq s = true ↔ s.ie = true ∧ s.done = true) ∧
  (∀ (s t : State) (v : Word) (rest : List Input), s.inputs = .access (.write 0x008 4 v) :: rest →
    v.getLsbD 1 = true → step s = .next t → irq t = false) ∧
  (∀ (s t : State) (w : Word) (rest : List Input), s.seq = .idle → s.inputs = .access (.write 0x004 4 w) :: rest →
    step s = .next t → irq t = false) ∧
  (∀ (s t : State) (rest : List Input), s.inputs = .reset :: rest → step s = .next t → irq t = false) ∧
  (∀ (s t : State) (v : Word) (rest : List Input), s.inputs = .access (.write 0x000 4 v) :: rest →
    step s = .next t → irq t = (v.getLsbD 0 && s.done)) ∧
  (∀ (s t : State) (w : Word), s.seq = .busy w → engineTurn s = .next t → irq t = s.ie) ∧
  (∀ (s : State) (b : Bool), irq { s with ovr := b } = irq s)

/-! ### NOP and the key schedule -/

/-- 45_control.md R217. -/
def Obligations.NopCompletes : Prop :=
  (∀ s : State, exec .nop s = .next { s with err := .ok, seq := .idle, done := true }) ∧
  encode .nop = 0x00000000 ∧ (∀ w : Word, decode w = .command .nop ↔ w = 0x00000000) ∧
  ∃ t, step (State.reset.withFetchWord 32 0) = .next t ∧ statusWord t = 0x00000002

/-- 41_key_schedule.md section 2: a `SETKEY_ENC` with a legal length, and its frame. -/
def Obligations.SetkeyEncCompletes : Prop :=
  ∀ (s : State) (keylen : Nat), keylen = 16 ∨ keylen = 24 ∨ keylen = 32 →
    ∃ t, exec (.setkeyEnc keylen) s = .next t ∧
      t = { s with rk := t.rk, nr := BitVec.ofNat 4 (keylen / 4 + 6), ctxDir := .enc, ctxValid := true,
                   err := .ok, seq := .idle, done := true } ∧
      (∀ r, r ≤ keylen / 4 + 6 →
        slot t.rk r = (encSchedule s.cfg.tables s.key.toList keylen).keys.getD r Block.zero) ∧
      (∀ r, keylen / 4 + 6 < r → slot t.rk r = slot s.rk r)

/-- 41_key_schedule.md section 2: a `SETKEY_DEC` with a legal length, and its frame. -/
def Obligations.SetkeyDecCompletes : Prop :=
  ∀ (s : State) (keylen : Nat), keylen = 16 ∨ keylen = 24 ∨ keylen = 32 →
    ∃ t, exec (.setkeyDec keylen) s = .next t ∧
      t = { s with rk := t.rk, nr := BitVec.ofNat 4 (keylen / 4 + 6), ctxDir := .dec, ctxValid := true,
                   err := .ok, seq := .idle, done := true } ∧
      (∀ r, r ≤ keylen / 4 + 6 →
        slot t.rk r = (decSchedule s.cfg.tables s.key.toList keylen).keys.getD r Block.zero) ∧
      (∀ r, keylen / 4 + 6 < r → slot t.rk r = slot s.rk r)

/-- 60_exceptions.md R238. -/
def Obligations.InvalidKeyLengthMakesContextUnusable : Prop :=
  (∀ (s : State) (keylen : Nat), keylen ≠ 16 → keylen ≠ 24 → keylen ≠ 32 →
    exec (.setkeyEnc keylen) s =
      .next { s with ctxValid := false, err := .invalidKeyLength, seq := .idle, done := true } ∧
    exec (.setkeyDec keylen) s =
      .next { s with ctxValid := false, err := .invalidKeyLength, seq := .idle, done := true }) ∧
  (∀ (s t : State) (keylen : Nat),
    exec (.setkeyEnc keylen) s = .next t ∨ exec (.setkeyDec keylen) s = .next t →
    t.err = .ok ∨ t.err = .invalidKeyLength) ∧
  (∀ (s t : State), s.seq = .busy 0x00001401 → s.inputs = [] → step s = .next t → t.err = .invalidKeyLength)

/-- 41_key_schedule.md R140, R141: the words of the key expansion, for every key of a legal length and any tables. -/
def Obligations.KeyExpansionRecurrence : Prop :=
  ∀ (T : Tables) (K : Vector Column 8) (keylen : Nat), keylen = 16 ∨ keylen = 24 ∨ keylen = 32 →
    let w := fun i => (keyExpansion T K.toList keylen).getD i Column.zero
    let nk := keylen / 4
    (keyExpansion T K.toList keylen).length = 4 * (nk + 6 + 1) ∧
    (∀ i, i < nk → w i = K.toList.getD i Column.zero) ∧
    (∀ i, nk ≤ i → i < 4 * (nk + 6 + 1) →
      (i % nk = 0 →
        w i = (w (i - nk)).xor
          (Column.xor ⟨sBox T (w (i - 1)).r1, sBox T (w (i - 1)).r2, sBox T (w (i - 1)).r3, sBox T (w (i - 1)).r0⟩
            ⟨rcon T (i / nk), 0, 0, 0⟩)) ∧
      (nk = 8 → i % nk = 4 →
        w i = (w (i - nk)).xor
          ⟨sBox T (w (i - 1)).r0, sBox T (w (i - 1)).r1, sBox T (w (i - 1)).r2, sBox T (w (i - 1)).r3⟩) ∧
      (i % nk ≠ 0 → ¬ (nk = 8 ∧ i % nk = 4) → w i = (w (i - nk)).xor (w (i - 1))))

/-- 41_key_schedule.md R142, R143: the round keys of the two schedules from the expanded words. -/
def Obligations.SchedulesGroupAndReverse : Prop :=
  ∀ (T : Tables) (K : Vector Column 8) (keylen : Nat), keylen = 16 ∨ keylen = 24 ∨ keylen = 32 →
    let w := fun i => (keyExpansion T K.toList keylen).getD i Column.zero
    let nr := keylen / 4 + 6
    let ek := fun r => (encSchedule T K.toList keylen).keys.getD r Block.zero
    let dk := fun r => (decSchedule T K.toList keylen).keys.getD r Block.zero
    (encSchedule T K.toList keylen).nr = nr ∧ (decSchedule T K.toList keylen).nr = nr ∧
    (encSchedule T K.toList keylen).keys.length = nr + 1 ∧ (decSchedule T K.toList keylen).keys.length = nr + 1 ∧
    (∀ r, r ≤ nr → ek r = ⟨w (4 * r), w (4 * r + 1), w (4 * r + 2), w (4 * r + 3)⟩) ∧
    ek 0 = ⟨K.toList.getD 0 Column.zero, K.toList.getD 1 Column.zero, K.toList.getD 2 Column.zero,
      K.toList.getD 3 Column.zero⟩ ∧
    (24 ≤ keylen → (ek 1).c0 = K.toList.getD 4 Column.zero ∧ (ek 1).c1 = K.toList.getD 5 Column.zero) ∧
    (keylen = 32 → (ek 1).c2 = K.toList.getD 6 Column.zero ∧ (ek 1).c3 = K.toList.getD 7 Column.zero) ∧
    dk 0 = ek nr ∧ dk nr = ek 0 ∧ (∀ i, 1 ≤ i → i ≤ nr - 1 → dk i = invMixColumns (ek (nr - i)))

/-- 41_key_schedule.md R149. -/
def Obligations.ContextsOfOneKeyAgree : Prop :=
  ∀ (s : State) (keylen : Nat), keylen = 16 ∨ keylen = 24 ∨ keylen = 32 →
    ∃ t u, exec (.setkeyEnc keylen) s = .next t ∧ exec (.setkeyDec keylen) s = .next u ∧
      u.nr = t.nr ∧ slot u.rk 0 = slot t.rk t.nr.toNat ∧ slot u.rk u.nr.toNat = slot t.rk 0

/-- 41_key_schedule.md section 2: `CLEAR_CTX` destroys the context and the key and changes nothing else but the status. -/
def Obligations.ClearCtxCompletes : Prop :=
  ∀ s : State, ∃ t, exec .clearCtx s = .next t ∧
    t = { s with rk := t.rk, key := t.key, ctxValid := false, ctxDir := .enc, nr := 0,
                 err := .ok, seq := .idle, done := true } ∧
    (∀ r, slot t.rk r = Block.zero) ∧ (∀ k, keyWord t k = Column.zero)

/-! ### Data commands -/

/-- 42_block_transform.md section 2: the two ECB commands with a context of their direction, and their frame. -/
def Obligations.EcbCompletes : Prop :=
  (∀ s : State, HasContext s .enc →
    exec .ecbEnc s = .next { s with dout := cipher s.cfg.tables s.nr.toNat s.rk.toList s.din,
                                    err := .ok, seq := .idle, done := true }) ∧
  (∀ s : State, HasContext s .dec →
    exec .ecbDec s = .next { s with dout := invCipher s.cfg.tables s.nr.toNat s.rk.toList s.din,
                                    err := .ok, seq := .idle, done := true })

/-- 43_cbc.md section 2: `CBC_ENC` does what its pseudocode says, for every placement of the buffers, and its frame. -/
def Obligations.CbcEncCompletes : Prop :=
  ∀ s : State, HasContext s .enc → s.len.toNat % 16 = 0 → InRange s →
    ∃ t, exec .cbcEnc s = .next t ∧
      t = { s with dbuf := t.dbuf, iv := t.iv, err := .ok, seq := .idle, done := true } ∧
      t.iv = (cbcEncRun (cipher s.cfg.tables s.nr.toNat s.rk.toList) s.src.toNat s.dst.toNat (dbufByte s) s.iv
                (s.len.toNat / 16)).2 ∧
      (∀ a, dbufByte t a =
        (cbcEncRun (cipher s.cfg.tables s.nr.toNat s.rk.toList) s.src.toNat s.dst.toNat (dbufByte s) s.iv
          (s.len.toNat / 16)).1 a) ∧
      (∀ a, a < s.dst.toNat ∨ s.dst.toNat + s.len.toNat ≤ a → dbufByte t a = dbufByte s a)

/-- 43_cbc.md section 2: `CBC_DEC` does what its pseudocode says, for every placement of the buffers, and its frame. -/
def Obligations.CbcDecCompletes : Prop :=
  ∀ s : State, HasContext s .dec → s.len.toNat % 16 = 0 → InRange s →
    ∃ t, exec .cbcDec s = .next t ∧
      t = { s with dbuf := t.dbuf, iv := t.iv, err := .ok, seq := .idle, done := true } ∧
      t.iv = (cbcDecRun (invCipher s.cfg.tables s.nr.toNat s.rk.toList) s.src.toNat s.dst.toNat (dbufByte s) s.iv
                (s.len.toNat / 16)).2 ∧
      (∀ a, dbufByte t a =
        (cbcDecRun (invCipher s.cfg.tables s.nr.toNat s.rk.toList) s.src.toNat s.dst.toNat (dbufByte s) s.iv
          (s.len.toNat / 16)).1 a) ∧
      (∀ a, a < s.dst.toNat ∨ s.dst.toNat + s.len.toNat ≤ a → dbufByte t a = dbufByte s a)

/-- 44_cfb128.md section 2: `CFB_ENC` does what its pseudocode says, for every length, offset and placement of the
buffers, and its frame. -/
def Obligations.CfbEncCompletes : Prop :=
  ∀ s : State, HasContext s .enc → InRange s →
    ∃ t, exec .cfbEnc s = .next t ∧
      t = { s with dbuf := t.dbuf, iv := t.iv, offset := t.offset, err := .ok, seq := .idle, done := true } ∧
      (let r := cfbRun true (cipher s.cfg.tables s.nr.toNat s.rk.toList) s.src.toNat s.dst.toNat (dbufByte s) s.iv
                  s.offset.toNat s.len.toNat
       t.iv = r.iv ∧ t.offset.toNat = r.offset ∧ ∀ a, dbufByte t a = r.mem a) ∧
      (∀ a, a < s.dst.toNat ∨ s.dst.toNat + s.len.toNat ≤ a → dbufByte t a = dbufByte s a)

/-- 44_cfb128.md section 2: `CFB_DEC` does what its pseudocode says, for every length, offset and placement of the
buffers, and its frame. -/
def Obligations.CfbDecCompletes : Prop :=
  ∀ s : State, HasContext s .enc → InRange s →
    ∃ t, exec .cfbDec s = .next t ∧
      t = { s with dbuf := t.dbuf, iv := t.iv, offset := t.offset, err := .ok, seq := .idle, done := true } ∧
      (let r := cfbRun false (cipher s.cfg.tables s.nr.toNat s.rk.toList) s.src.toNat s.dst.toNat (dbufByte s) s.iv
                  s.offset.toNat s.len.toNat
       t.iv = r.iv ∧ t.offset.toNat = r.offset ∧ ∀ a, dbufByte t a = r.mem a) ∧
      (∀ a, a < s.dst.toNat ∨ s.dst.toNat + s.len.toNat ≤ a → dbufByte t a = dbufByte s a)

/-- 44_cfb128.md R200. -/
def Obligations.CfbOffsetAfter : Prop :=
  ∀ s : State, HasContext s .enc → InRange s →
    (∃ t, exec .cfbEnc s = .next t ∧ t.offset.toNat = (s.offset.toNat + s.len.toNat) % 16) ∧
    (∃ t, exec .cfbDec s = .next t ∧ t.offset.toNat = (s.offset.toNat + s.len.toNat) % 16)

/-- 43_cbc.md R185. The last input block of `CBC_DEC` is read after the earlier blocks are written, so it is read from
the state that the command over all but the last block leaves. -/
def Obligations.CbcIvIsLastCiphertext : Prop :=
  (∀ s : State, HasContext s .enc → s.len.toNat % 16 = 0 → InRange s →
    ∃ t, exec .cbcEnc s = .next t ∧ (s.len = 0 → t.iv = s.iv) ∧
      (16 ≤ s.len.toNat → t.iv = memReadBlock t (s.dst.toNat + s.len.toNat - 16))) ∧
  (∀ s : State, HasContext s .dec → s.len.toNat % 16 = 0 → InRange s →
    ∃ t, exec .cbcDec s = .next t ∧ (s.len = 0 → t.iv = s.iv) ∧
      (16 ≤ s.len.toNat → ∃ u, exec .cbcDec { s with len := s.len - 16 } = .next u ∧
        t.iv = memReadBlock u (s.src.toNat + s.len.toNat - 16)))

/-- 43_cbc.md R183. -/
def Obligations.CbcContinuation : Prop :=
  ∀ (i : Instr) (d : Dir) (s : State) (a b : Nat),
    (i = .cbcEnc ∧ d = .enc) ∨ (i = .cbcDec ∧ d = .dec) → s.cfg.legal = true → HasContext s d →
    a % 16 = 0 → b % 16 = 0 → s.src.toNat + (a + b) ≤ s.cfg.dbufSize → s.dst.toNat + (a + b) ≤ s.cfg.dbufSize →
    ∃ t u v, exec i { s with len := BitVec.ofNat 32 (a + b) } = .next t ∧
      exec i { s with len := BitVec.ofNat 32 a } = .next u ∧
      exec i { u with len := BitVec.ofNat 32 b, src := s.src + BitVec.ofNat 32 a, dst := s.dst + BitVec.ofNat 32 a } =
        .next v ∧
      v.err = .ok ∧ v.iv = t.iv ∧ ∀ x, dbufByte v x = dbufByte t x

/-- 44_cfb128.md R202. -/
def Obligations.CfbContinuation : Prop :=
  ∀ (i : Instr) (s : State) (a b : Nat), i = .cfbEnc ∨ i = .cfbDec → s.cfg.legal = true → HasContext s .enc →
    s.src.toNat + (a + b) ≤ s.cfg.dbufSize → s.dst.toNat + (a + b) ≤ s.cfg.dbufSize →
    ∃ t u v, exec i { s with len := BitVec.ofNat 32 (a + b) } = .next t ∧
      exec i { s with len := BitVec.ofNat 32 a } = .next u ∧
      exec i { u with len := BitVec.ofNat 32 b, src := s.src + BitVec.ofNat 32 a, dst := s.dst + BitVec.ofNat 32 a } =
        .next v ∧
      v.err = .ok ∧ v.iv = t.iv ∧ v.offset = t.offset ∧ ∀ x, dbufByte v x = dbufByte t x

/-- 45_control.md R221, R222: with the spec's tables the self-test always passes; with any tables its pseudocode runs
unchanged; `VERBOSE` makes no difference. -/
def Obligations.SelfTestCompletes : Prop :=
  (∀ (s : State) (verbose : Bool), s.cfg.tables = Tables.standard →
    ∃ t, exec (.selfTest verbose) s = .next t ∧
      t = { s with stPass := 0xFFF, stRan := true, err := .ok, seq := .idle, done := true } ∧
      stResultWord t = 0x00010FFF) ∧
  (∀ (s : State) (verbose : Bool),
    ∃ t, exec (.selfTest verbose) s = .next t ∧
      t = { s with stPass := t.stPass, stRan := true, err := t.err, seq := .idle, done := true } ∧
      (∀ i, i < 12 → t.stPass.getLsbD i = (selfTestChecks s.cfg.tables).getD i false) ∧
      (t.err = .ok ∨ t.err = .selfTestFailed) ∧
      (t.err = .ok ↔ ∀ i, i < 12 → (selfTestChecks s.cfg.tables).getD i false = true)) ∧
  (∀ s : State, exec (.selfTest true) s = exec (.selfTest false) s)

/-! ### Errors -/

/-- 60_exceptions.md R243: the six data commands without a context of their direction, and the recorded fault, which no
later step clears. The second clause says it of every recorded fault: for bus errors that they stay, and for both kinds
that the reset input keeps them, is the model's reading (log entries 10 and 11). -/
def Obligations.ContractViolationIsRefused : Prop :=
  (∀ (i : Instr) (d : Dir) (s : State),
    ((i = .ecbEnc ∨ i = .cbcEnc ∨ i = .cfbEnc ∨ i = .cfbDec) ∧ d = .enc) ∨
      ((i = .ecbDec ∨ i = .cbcDec) ∧ d = .dec) → ¬ HasContext s d →
    exec i s = .next { s with err := .contractViolation, seq := .idle, done := true,
                              faults := .contractViolation :: s.faults }) ∧
  (∀ s t : State, step s = .next t → ∀ f, f ∈ s.faults → f ∈ t.faults)

/-- 60_exceptions.md R239, R244. -/
def Obligations.LengthAndRangeErrors : Prop :=
  (∀ (i : Instr) (d : Dir) (s : State), (i = .cbcEnc ∧ d = .enc) ∨ (i = .cbcDec ∧ d = .dec) → HasContext s d →
    s.len.toNat % 16 ≠ 0 →
    exec i s = .next { s with err := .invalidInputLength, seq := .idle, done := true }) ∧
  (∀ (i : Instr) (s t : State), i ≠ .cbcEnc → i ≠ .cbcDec → exec i s = .next t → t.err ≠ .invalidInputLength) ∧
  (∀ (i : Instr) (d : Dir) (s : State), (i = .cbcEnc ∧ d = .enc) ∨ (i = .cbcDec ∧ d = .dec) → HasContext s d →
    s.len.toNat % 16 = 0 → ¬ InRange s →
    exec i s = .next { s with err := .rangeError, seq := .idle, done := true }) ∧
  (∀ (i : Instr) (s : State), i = .cfbEnc ∨ i = .cfbDec → HasContext s .enc → ¬ InRange s →
    exec i s = .next { s with err := .rangeError, seq := .idle, done := true })

/-- 60_exceptions.md R247. -/
def Obligations.FirstFailingCheckIsReported : Prop :=
  ∀ (s t : State) (w : Word), s.seq = .busy w → engineTurn s = .next t → t.err = firstError (decode w) s

/-- 60_exceptions.md R236. -/
def Obligations.FailedCommandsChangeNothingElse : Prop :=
  ∀ (i : Instr) (s t : State), exec i s = .next t → t.err ≠ .ok →
    t = { s with err := t.err, seq := .idle, done := true, faults := t.faults,
                 ctxValid := t.ctxValid, stPass := t.stPass, stRan := t.stRan } ∧
    ((∃ k, i = .setkeyEnc k ∨ i = .setkeyDec k) → t.ctxValid = false) ∧
    ((∀ k, i ≠ .setkeyEnc k ∧ i ≠ .setkeyDec k) → t.ctxValid = s.ctxValid) ∧
    ((∀ v, i ≠ .selfTest v) → t.stPass = s.stPass ∧ t.stRan = s.stRan) ∧
    ((∃ v, i = .selfTest v) → t.stPass = selfTestBits s.cfg.tables ∧ t.stRan = true)

/-! ### What may change what -/

/-- 10_state.md sections 1 to 4: the registers a command writes, and that it writes no other. -/
def Obligations.CommandsWriteOnlyTheirRegisters : Prop :=
  ∀ (i : Instr) (s t : State), exec i s = .next t →
    (t.ie = s.ie ∧ t.ovr = s.ovr ∧ t.len = s.len ∧ t.src = s.src ∧ t.dst = s.dst ∧ t.din = s.din) ∧
    (t.cfg = s.cfg ∧ t.epoch = s.epoch ∧ t.draws = s.draws ∧ t.resp = s.resp ∧ t.inputs = s.inputs) ∧
    (t.seq = .idle ∧ t.done = true) ∧
    (i ≠ .cbcEnc → i ≠ .cbcDec → i ≠ .cfbEnc → i ≠ .cfbDec → t.iv = s.iv ∧ t.dbuf = s.dbuf) ∧
    (i ≠ .cfbEnc → i ≠ .cfbDec → t.offset = s.offset) ∧
    (i ≠ .ecbEnc → i ≠ .ecbDec → t.dout = s.dout) ∧
    (i ≠ .clearCtx → t.key = s.key) ∧
    ((∀ v, i ≠ .selfTest v) → t.stPass = s.stPass ∧ t.stRan = s.stRan)

/-- 10_state.md R32: the only steps that may change the context, and what a `SETKEY_*` does to it. -/
def Obligations.ContextChangesOnlyByKeyCommands : Prop :=
  (∀ s t : State, step s = .next t →
    ¬ (t.ctxValid = s.ctxValid ∧ t.ctxDir = s.ctxDir ∧ t.nr = s.nr ∧ t.rk = s.rk) →
    (∃ rest, s.inputs = .reset :: rest) ∨
    ((s.inputs = [] ∨ ∃ rest, s.inputs = .engine :: rest) ∧
      ∃ w i, s.seq = .busy w ∧ decode w = .command i ∧
        (i = .clearCtx ∨ ∃ k, i = .setkeyEnc k ∨ i = .setkeyDec k))) ∧
  (∀ (s t : State) (k : Nat) (d : Dir) (sched : Schedule),
    (exec (.setkeyEnc k) s = .next t ∧ d = .enc ∧ sched = encSchedule s.cfg.tables s.key.toList k) ∨
      (exec (.setkeyDec k) s = .next t ∧ d = .dec ∧ sched = decSchedule s.cfg.tables s.key.toList k) →
    (t.err = .ok ∧ t.ctxValid = true ∧ t.ctxDir = d ∧ t.nr.toNat = sched.nr ∧
      ∀ r, r ≤ sched.nr → slot t.rk r = sched.keys.getD r Block.zero) ∨
    (t.err = .invalidKeyLength ∧ t.ctxValid = false ∧ t.ctxDir = s.ctxDir ∧ t.nr = s.nr ∧ t.rk = s.rk))

/-- 10_state.md section 2: `OVR` is set only by a host write while busy, and cleared only by a write of 1 to its bit or
by reset. -/
def Obligations.OvrSetAndCleared : Prop :=
  ∀ s t : State, step s = .next t →
    (s.ovr = false → t.ovr = true →
      busy s = true ∧ ∃ offset size v rest, s.inputs = .access (.write offset size v) :: rest) ∧
    (s.ovr = true → t.ovr = false →
      (∃ rest, s.inputs = .reset :: rest) ∨
      (∃ v rest, s.inputs = .access (.write 0x008 4 v) :: rest ∧ v.getLsbD 2 = true))

/-- 70_reset_and_hazards.md R265, R267: the reset input, from any state, a command in flight or not, and the state the
machine starts in. `RK` is left out: its values there are the model's choice (log entry 4). -/
def Obligations.ResetGivesTheResetState : Prop :=
  (∀ (s : State) (rest : List Input), s.inputs = .reset :: rest →
    ∃ t, step s = .next t ∧
      t.seq = .idle ∧ ctrlWord t = 0 ∧ statusWord t = 0 ∧ t.len = 0 ∧ t.src = 0 ∧ t.dst = 0 ∧ t.offset = 0 ∧
      stResultWord t = 0 ∧ (∀ k, keyWord t k = Column.zero) ∧
      t.iv = Block.zero ∧ t.din = Block.zero ∧ t.dout = Block.zero ∧ regRead .id t = 0x41455331 ∧ irq t = false ∧
      (∀ i, i = .ecbEnc ∨ i = .ecbDec ∨ i = .cbcEnc ∨ i = .cbcDec ∨ i = .cfbEnc ∨ i = .cfbDec →
        ∃ u, exec i t = .next u ∧ u.err = .contractViolation)) ∧
  State.reset.seq = .idle ∧ ctrlWord State.reset = 0 ∧ statusWord State.reset = 0 ∧ State.reset.len = 0 ∧
  State.reset.src = 0 ∧ State.reset.dst = 0 ∧ State.reset.offset = 0 ∧ stResultWord State.reset = 0 ∧
  (∀ k, keyWord State.reset k = Column.zero) ∧ State.reset.iv = Block.zero ∧ State.reset.din = Block.zero ∧
  State.reset.dout = Block.zero ∧ regRead .id State.reset = 0x41455331 ∧ irq State.reset = false

/-- 70_reset_and_hazards.md section 1 and 93_implementation_defined.md Part 1: each reset draws `DBUF` anew (the draw by
reset number is the model's choice, log entry 2), an unwritten byte keeps its draw whatever is written elsewhere, and
the reset input keeps what lies outside the block and the recorded faults (the model's reading, log entry 10). -/
def Obligations.ResetRedrawsDbuf : Prop :=
  (∀ (s : State) (rest : List Input), s.inputs = .reset :: rest →
    ∃ t, step s = .next t ∧ (∀ a, dbufByte t a = Config.dbufDraw (s.epoch + 1) a) ∧ t.epoch = s.epoch + 1 ∧
      t.cfg = s.cfg ∧ t.draws = s.draws ∧ t.faults = s.faults ∧ t.inputs = rest) ∧
  (∀ a, dbufByte State.reset a = Config.dbufDraw State.reset.epoch a) ∧ State.reset.faults = [] ∧
  (∀ (s : State) (a n : Nat) (v : Word) (b : Nat), Memory.get? s.dbuf b = none → b < a ∨ a + n ≤ b →
    dbufByte (dbufWrite s a n v) b = Config.dbufDraw s.epoch b) ∧
  (∀ s t : State, (¬ ∃ rest, s.inputs = .reset :: rest) → step s = .next t → t.epoch = s.epoch)

/-- 60_exceptions.md R248: a host access and the completion step, in either order. `c` is what the completion alone
gives from `s`; with a write before it the completion has the same effect, `OVR` and the response being the write's. -/
def Obligations.HostAndEngineInEitherOrder : Prop :=
  ∀ (s : State) (w v : Word) (rest : List Input), s.seq = .busy w →
    ∃ c, engineTurn { s with inputs := rest } = .next c ∧ c.done = true ∧ c.seq = .idle ∧ c.ovr = s.ovr ∧
    (s.inputs = .access (.write 0x008 4 v) :: .engine :: rest →
      ∃ t u, step s = .next t ∧ t.done = (s.done && !v.getLsbD 1) ∧ t.ovr = (s.ovr && !v.getLsbD 2) ∧ t.seq = s.seq ∧
        step t = .next u ∧ u = { c with ovr := s.ovr && !v.getLsbD 2, resp := some ⟨.okay, none⟩ }) ∧
    (s.inputs = .engine :: .access (.write 0x008 4 v) :: rest →
      ∃ t u, step s = .next t ∧ t = { c with inputs := .access (.write 0x008 4 v) :: rest } ∧
        step t = .next u ∧
        u = { c with done := !v.getLsbD 1, ovr := s.ovr && !v.getLsbD 2, resp := some ⟨.okay, none⟩ }) ∧
    (∀ offset size : Nat,
      (size = 4 ∧ offset % 4 = 0 ∧ (offset = 0x004 ∨ (0x00C ≤ offset ∧ offset ≤ 0x06C))) ∨ DbufLegal s offset size →
      s.inputs = .access (.write offset size v) :: .engine :: rest →
      ∃ t u, step s = .next t ∧ t = { s with inputs := .engine :: rest, ovr := true, resp := some ⟨.okay, none⟩ } ∧
        step t = .next u ∧ u = { c with ovr := true, resp := some ⟨.okay, none⟩ })

/-- 60_exceptions.md section 6: no response of the bus depends on the key or on a round key. -/
def Obligations.KeyMaterialIsUnreadable : Prop :=
  (∀ (s : State) (a : Access) (K : Vector Column 8) (R : Vector Block 15),
    (hostAccess a { s with key := K, rk := R }).resp = (hostAccess a s).resp) ∧
  (∀ (s : State) (k : Nat), k < 8 →
    (hostAccess (.read (0x020 + 4 * k) 4) s).resp = some ⟨.okay, some 0⟩)

/-- 10_state.md R31: no command's result depends on a slot above `NR`, `SETKEY_*` leave those slots as they are, and no
response of the bus depends on a slot. -/
def Obligations.SlotsAboveNrAreNeverRead : Prop :=
  (∀ (i : Instr) (s t : State) (R : Vector Block 15), (∀ r, r ≤ s.nr.toNat → slot R r = slot s.rk r) →
    exec i s = .next t → ∃ u, exec i { s with rk := R } = .next u ∧ { u with rk := t.rk } = t ∧
      ∀ r, r ≤ t.nr.toNat → t.ctxValid = true → slot u.rk r = slot t.rk r) ∧
  (∀ (s t : State) (k r : Nat), exec (.setkeyEnc k) s = .next t ∨ exec (.setkeyDec k) s = .next t →
    t.nr.toNat < r → slot t.rk r = slot s.rk r) ∧
  (∀ (s : State) (a : Access) (R : Vector Block 15), (hostAccess a { s with rk := R }).resp = (hostAccess a s).resp)

/-- 70_reset_and_hazards.md R277. -/
def Obligations.KeyWritesLeaveTheContext : Prop :=
  (∀ (s : State) (k : Nat) (v : Word) (rest : List Input), k < 8 →
    s.inputs = .access (.write (0x020 + 4 * k) 4 v) :: rest →
    ∃ t, step s = .next t ∧ t.rk = s.rk ∧ t.nr = s.nr ∧ t.ctxDir = s.ctxDir ∧ t.ctxValid = s.ctxValid) ∧
  (∀ (i : Instr) (s t : State) (K : Vector Column 8),
    i = .ecbEnc ∨ i = .ecbDec ∨ i = .cbcEnc ∨ i = .cbcDec ∨ i = .cfbEnc ∨ i = .cfbDec → exec i s = .next t →
    exec i { s with key := K } = .next { t with key := K })

/-- 93_implementation_defined.md Part 1: no state stops the machine. -/
def Obligations.EveryStepAnswersANextState : Prop :=
  ∀ s : State, ∃ t, step s = .next t

/-! ### Invariants -/

/-- 10_state.md section 5: every step keeps `DBUF` in its canonical form within `DBUF_SIZE`. -/
def Obligations.StepKeepsMemoryForm : Prop :=
  ∀ s t : State, memoryWf s → step s = .next t → memoryWf t

/-- 10_state.md section 2: every step keeps `NR` legal, `DONE` apart from `BUSY`, and `PASS` 0 before the first
self-test. -/
def Obligations.StepKeepsStatusLegal : Prop :=
  ∀ s t : State, roundCountLegal s ∧ doneNotBusy s ∧ passNeedsRun s → step s = .next t →
    roundCountLegal t ∧ doneNotBusy t ∧ passNeedsRun t

/-- 10_state.md section 3: every step keeps a valid context the schedule of some key of a legal length. -/
def Obligations.StepKeepsContextScheduled : Prop :=
  ∀ s t : State, contextScheduled s → step s = .next t → contextScheduled t

/-- The state after reset meets the invariants. Its `DBUF_SIZE` is the spec's default (the model's choice, log entry 6). -/
def Obligations.ResetMeetsTheInvariants : Prop :=
  memoryWf State.reset ∧ roundCountLegal State.reset ∧ doneNotBusy State.reset ∧ passNeedsRun State.reset ∧
    contextScheduled State.reset ∧ State.reset.cfg.legal = true

/-! ### The cipher -/

/-- 40_primitives.md R113, R114, R116: the tables against their definitions. -/
def Obligations.SboxIsAffineOfInverse : Prop :=
  (∀ a : Byte, a ≠ 0 → gmul a (ginv a) = 1 ∧ ∀ b, gmul a b = 1 → b = ginv a) ∧ ginv 0 = 0 ∧
  (∀ x : Byte, sBox Tables.standard x =
    ginv x ^^^ rotl8 (ginv x) 1 ^^^ rotl8 (ginv x) 2 ^^^ rotl8 (ginv x) 3 ^^^ rotl8 (ginv x) 4 ^^^ 0x63) ∧
  (∀ x : Byte, sInv Tables.standard (sBox Tables.standard x) = x)

/-- 40_primitives.md R123 to R126: the row moves by index, and the two matrices. -/
def Obligations.RoundStepsByIndexAndMatrix : Prop :=
  (∀ (b : Block) (r c : Nat), r < 4 → c < 4 →
    blockByte (shiftRows b) (r + 4 * c) = blockByte b (r + 4 * ((c + r) % 4)) ∧
    blockByte (invShiftRows b) (r + 4 * c) = blockByte b (r + 4 * ((c + 4 - r) % 4))) ∧
  (∀ a : Column, mixColumn a =
    ⟨gmul 2 a.r0 ^^^ gmul 3 a.r1 ^^^ a.r2 ^^^ a.r3, a.r0 ^^^ gmul 2 a.r1 ^^^ gmul 3 a.r2 ^^^ a.r3,
     a.r0 ^^^ a.r1 ^^^ gmul 2 a.r2 ^^^ gmul 3 a.r3, gmul 3 a.r0 ^^^ a.r1 ^^^ a.r2 ^^^ gmul 2 a.r3⟩) ∧
  (∀ a : Column, invMixColumn a =
    ⟨gmul 14 a.r0 ^^^ gmul 11 a.r1 ^^^ gmul 13 a.r2 ^^^ gmul 9 a.r3,
     gmul 9 a.r0 ^^^ gmul 14 a.r1 ^^^ gmul 11 a.r2 ^^^ gmul 13 a.r3,
     gmul 13 a.r0 ^^^ gmul 9 a.r1 ^^^ gmul 14 a.r2 ^^^ gmul 11 a.r3,
     gmul 11 a.r0 ^^^ gmul 13 a.r1 ^^^ gmul 9 a.r2 ^^^ gmul 14 a.r3⟩) ∧
  (∀ b : Block, mixColumns b = ⟨mixColumn b.c0, mixColumn b.c1, mixColumn b.c2, mixColumn b.c3⟩ ∧
    invMixColumns b = ⟨invMixColumn b.c0, invMixColumn b.c1, invMixColumn b.c2, invMixColumn b.c3⟩) ∧
  (∀ a k : Block, invMixColumns (a.xor k) = (invMixColumns a).xor (invMixColumns k))

/-- 40_primitives.md R128. -/
def Obligations.RoundStepsInvert : Prop :=
  (∀ b : Block, invSubBytes Tables.standard (invShiftRows b) = invShiftRows (invSubBytes Tables.standard b)) ∧
  (∀ b : Block, subBytes Tables.standard (shiftRows b) = shiftRows (subBytes Tables.standard b)) ∧
  (∀ b : Block, invSubBytes Tables.standard (subBytes Tables.standard b) = b) ∧
  (∀ b : Block, invShiftRows (shiftRows b) = b) ∧
  (∀ b : Block, invMixColumns (mixColumns b) = b)

/-- 42_block_transform.md R162, with the spec's tables. -/
def Obligations.InvCipherInvertsCipher : Prop :=
  ∀ (K : Vector Column 8) (keylen : Nat) (b : Block), keylen = 16 ∨ keylen = 24 ∨ keylen = 32 →
    let enc := encSchedule Tables.standard K.toList keylen
    let dec := decSchedule Tables.standard K.toList keylen
    invCipher Tables.standard dec.nr dec.keys (cipher Tables.standard enc.nr enc.keys b) = b

/-- 43_cbc.md R184: under one key, `CBC_DEC` of what `CBC_ENC` wrote returns the plaintext, when `IV` is reloaded with
the starting value. -/
def Obligations.CbcRoundTrip : Prop :=
  ∀ (s : State) (keylen : Nat), s.cfg.tables = Tables.standard → keylen = 16 ∨ keylen = 24 ∨ keylen = 32 →
    s.len.toNat % 16 = 0 → InRange s → InPlaceOrApart s →
    ∃ t u v x, exec (.setkeyEnc keylen) s = .next t ∧ exec .cbcEnc t = .next u ∧
      exec (.setkeyDec keylen) { u with iv := s.iv, src := s.dst } = .next v ∧ exec .cbcDec v = .next x ∧
      u.err = .ok ∧ x.err = .ok ∧
      ∀ i, i < s.len.toNat → dbufByte x (s.dst.toNat + i) = dbufByte s (s.src.toNat + i)

/-- 44_cfb128.md R203: from offset 0 and under one encryption context, `CFB_DEC` of what `CFB_ENC` wrote returns the
plaintext, when `IV` and `OFFSET` are reloaded. -/
def Obligations.CfbRoundTrip : Prop :=
  ∀ (s : State) (keylen : Nat), keylen = 16 ∨ keylen = 24 ∨ keylen = 32 → s.offset = 0 → InRange s →
    InPlaceOrApart s →
    ∃ t u x, exec (.setkeyEnc keylen) s = .next t ∧ exec .cfbEnc t = .next u ∧
      exec .cfbDec { u with iv := s.iv, offset := 0, src := s.dst } = .next x ∧ u.err = .ok ∧ x.err = .ok ∧
      ∀ i, i < s.len.toNat → dbufByte x (s.dst.toNat + i) = dbufByte s (s.src.toNat + i)
end

