-- ==== Sys2Proof/Laws/State.lean ====
section
/-!
SUPPORT. What each named update leaves in each field of State, one lemma per field, so that no proof unfolds a record
update.
-/

namespace Sys2Proof.Machine

/-! ### finish -/

@[simp] theorem finish_ie (code : ErrCode) (s : State) : (finish code s).ie = s.ie := rfl
@[simp] theorem finish_seq (code : ErrCode) (s : State) : (finish code s).seq = .idle := rfl
@[simp] theorem finish_done (code : ErrCode) (s : State) : (finish code s).done = true := rfl
@[simp] theorem finish_ovr (code : ErrCode) (s : State) : (finish code s).ovr = s.ovr := rfl
@[simp] theorem finish_err (code : ErrCode) (s : State) : (finish code s).err = code := rfl
@[simp] theorem finish_ctxValid (code : ErrCode) (s : State) : (finish code s).ctxValid = s.ctxValid := rfl
@[simp] theorem finish_ctxDir (code : ErrCode) (s : State) : (finish code s).ctxDir = s.ctxDir := rfl
@[simp] theorem finish_nr (code : ErrCode) (s : State) : (finish code s).nr = s.nr := rfl
@[simp] theorem finish_rk (code : ErrCode) (s : State) : (finish code s).rk = s.rk := rfl
@[simp] theorem finish_len (code : ErrCode) (s : State) : (finish code s).len = s.len := rfl
@[simp] theorem finish_src (code : ErrCode) (s : State) : (finish code s).src = s.src := rfl
@[simp] theorem finish_dst (code : ErrCode) (s : State) : (finish code s).dst = s.dst := rfl
@[simp] theorem finish_offset (code : ErrCode) (s : State) : (finish code s).offset = s.offset := rfl
@[simp] theorem finish_stPass (code : ErrCode) (s : State) : (finish code s).stPass = s.stPass := rfl
@[simp] theorem finish_stRan (code : ErrCode) (s : State) : (finish code s).stRan = s.stRan := rfl
@[simp] theorem finish_key (code : ErrCode) (s : State) : (finish code s).key = s.key := rfl
@[simp] theorem finish_iv (code : ErrCode) (s : State) : (finish code s).iv = s.iv := rfl
@[simp] theorem finish_din (code : ErrCode) (s : State) : (finish code s).din = s.din := rfl
@[simp] theorem finish_dout (code : ErrCode) (s : State) : (finish code s).dout = s.dout := rfl
@[simp] theorem finish_dbuf (code : ErrCode) (s : State) : (finish code s).dbuf = s.dbuf := rfl
@[simp] theorem finish_cfg (code : ErrCode) (s : State) : (finish code s).cfg = s.cfg := rfl
@[simp] theorem finish_epoch (code : ErrCode) (s : State) : (finish code s).epoch = s.epoch := rfl
@[simp] theorem finish_draws (code : ErrCode) (s : State) : (finish code s).draws = s.draws := rfl
@[simp] theorem finish_resp (code : ErrCode) (s : State) : (finish code s).resp = s.resp := rfl
@[simp] theorem finish_faults (code : ErrCode) (s : State) : (finish code s).faults = s.faults := rfl
@[simp] theorem finish_inputs (code : ErrCode) (s : State) : (finish code s).inputs = s.inputs := rfl

/-! ### issue -/

@[simp] theorem issue_ie (w : Word) (s : State) : (issue w s).ie = s.ie := rfl
@[simp] theorem issue_seq (w : Word) (s : State) : (issue w s).seq = .busy w := rfl
@[simp] theorem issue_done (w : Word) (s : State) : (issue w s).done = false := rfl
@[simp] theorem issue_ovr (w : Word) (s : State) : (issue w s).ovr = s.ovr := rfl
@[simp] theorem issue_err (w : Word) (s : State) : (issue w s).err = s.err := rfl
@[simp] theorem issue_ctxValid (w : Word) (s : State) : (issue w s).ctxValid = s.ctxValid := rfl
@[simp] theorem issue_ctxDir (w : Word) (s : State) : (issue w s).ctxDir = s.ctxDir := rfl
@[simp] theorem issue_nr (w : Word) (s : State) : (issue w s).nr = s.nr := rfl
@[simp] theorem issue_rk (w : Word) (s : State) : (issue w s).rk = s.rk := rfl
@[simp] theorem issue_len (w : Word) (s : State) : (issue w s).len = s.len := rfl
@[simp] theorem issue_src (w : Word) (s : State) : (issue w s).src = s.src := rfl
@[simp] theorem issue_dst (w : Word) (s : State) : (issue w s).dst = s.dst := rfl
@[simp] theorem issue_offset (w : Word) (s : State) : (issue w s).offset = s.offset := rfl
@[simp] theorem issue_stPass (w : Word) (s : State) : (issue w s).stPass = s.stPass := rfl
@[simp] theorem issue_stRan (w : Word) (s : State) : (issue w s).stRan = s.stRan := rfl
@[simp] theorem issue_key (w : Word) (s : State) : (issue w s).key = s.key := rfl
@[simp] theorem issue_iv (w : Word) (s : State) : (issue w s).iv = s.iv := rfl
@[simp] theorem issue_din (w : Word) (s : State) : (issue w s).din = s.din := rfl
@[simp] theorem issue_dout (w : Word) (s : State) : (issue w s).dout = s.dout := rfl
@[simp] theorem issue_dbuf (w : Word) (s : State) : (issue w s).dbuf = s.dbuf := rfl
@[simp] theorem issue_cfg (w : Word) (s : State) : (issue w s).cfg = s.cfg := rfl
@[simp] theorem issue_epoch (w : Word) (s : State) : (issue w s).epoch = s.epoch := rfl
@[simp] theorem issue_draws (w : Word) (s : State) : (issue w s).draws = s.draws := rfl
@[simp] theorem issue_resp (w : Word) (s : State) : (issue w s).resp = s.resp := rfl
@[simp] theorem issue_faults (w : Word) (s : State) : (issue w s).faults = s.faults := rfl
@[simp] theorem issue_inputs (w : Word) (s : State) : (issue w s).inputs = s.inputs := rfl

/-! ### setDbufByte -/

@[simp] theorem setDbufByte_ie (s : State) (a : Nat) (v : Byte) : (setDbufByte s a v).ie = s.ie := rfl
@[simp] theorem setDbufByte_seq (s : State) (a : Nat) (v : Byte) : (setDbufByte s a v).seq = s.seq := rfl
@[simp] theorem setDbufByte_done (s : State) (a : Nat) (v : Byte) : (setDbufByte s a v).done = s.done := rfl
@[simp] theorem setDbufByte_ovr (s : State) (a : Nat) (v : Byte) : (setDbufByte s a v).ovr = s.ovr := rfl
@[simp] theorem setDbufByte_err (s : State) (a : Nat) (v : Byte) : (setDbufByte s a v).err = s.err := rfl
@[simp] theorem setDbufByte_ctxValid (s : State) (a : Nat) (v : Byte) : (setDbufByte s a v).ctxValid = s.ctxValid := rfl
@[simp] theorem setDbufByte_ctxDir (s : State) (a : Nat) (v : Byte) : (setDbufByte s a v).ctxDir = s.ctxDir := rfl
@[simp] theorem setDbufByte_nr (s : State) (a : Nat) (v : Byte) : (setDbufByte s a v).nr = s.nr := rfl
@[simp] theorem setDbufByte_rk (s : State) (a : Nat) (v : Byte) : (setDbufByte s a v).rk = s.rk := rfl
@[simp] theorem setDbufByte_len (s : State) (a : Nat) (v : Byte) : (setDbufByte s a v).len = s.len := rfl
@[simp] theorem setDbufByte_src (s : State) (a : Nat) (v : Byte) : (setDbufByte s a v).src = s.src := rfl
@[simp] theorem setDbufByte_dst (s : State) (a : Nat) (v : Byte) : (setDbufByte s a v).dst = s.dst := rfl
@[simp] theorem setDbufByte_offset (s : State) (a : Nat) (v : Byte) : (setDbufByte s a v).offset = s.offset := rfl
@[simp] theorem setDbufByte_stPass (s : State) (a : Nat) (v : Byte) : (setDbufByte s a v).stPass = s.stPass := rfl
@[simp] theorem setDbufByte_stRan (s : State) (a : Nat) (v : Byte) : (setDbufByte s a v).stRan = s.stRan := rfl
@[simp] theorem setDbufByte_key (s : State) (a : Nat) (v : Byte) : (setDbufByte s a v).key = s.key := rfl
@[simp] theorem setDbufByte_iv (s : State) (a : Nat) (v : Byte) : (setDbufByte s a v).iv = s.iv := rfl
@[simp] theorem setDbufByte_din (s : State) (a : Nat) (v : Byte) : (setDbufByte s a v).din = s.din := rfl
@[simp] theorem setDbufByte_dout (s : State) (a : Nat) (v : Byte) : (setDbufByte s a v).dout = s.dout := rfl
@[simp] theorem setDbufByte_dbuf (s : State) (a : Nat) (v : Byte) : (setDbufByte s a v).dbuf = Memory.set s.dbuf a v := rfl
@[simp] theorem setDbufByte_cfg (s : State) (a : Nat) (v : Byte) : (setDbufByte s a v).cfg = s.cfg := rfl
@[simp] theorem setDbufByte_epoch (s : State) (a : Nat) (v : Byte) : (setDbufByte s a v).epoch = s.epoch := rfl
@[simp] theorem setDbufByte_draws (s : State) (a : Nat) (v : Byte) : (setDbufByte s a v).draws = s.draws := rfl
@[simp] theorem setDbufByte_resp (s : State) (a : Nat) (v : Byte) : (setDbufByte s a v).resp = s.resp := rfl
@[simp] theorem setDbufByte_faults (s : State) (a : Nat) (v : Byte) : (setDbufByte s a v).faults = s.faults := rfl
@[simp] theorem setDbufByte_inputs (s : State) (a : Nat) (v : Byte) : (setDbufByte s a v).inputs = s.inputs := rfl

/-! ### loadContext -/

@[simp] theorem loadContext_ie (d : Dir) (k : Schedule) (s : State) : (loadContext d k s).ie = s.ie := rfl
@[simp] theorem loadContext_seq (d : Dir) (k : Schedule) (s : State) : (loadContext d k s).seq = s.seq := rfl
@[simp] theorem loadContext_done (d : Dir) (k : Schedule) (s : State) : (loadContext d k s).done = s.done := rfl
@[simp] theorem loadContext_ovr (d : Dir) (k : Schedule) (s : State) : (loadContext d k s).ovr = s.ovr := rfl
@[simp] theorem loadContext_err (d : Dir) (k : Schedule) (s : State) : (loadContext d k s).err = s.err := rfl
@[simp] theorem loadContext_ctxValid (d : Dir) (k : Schedule) (s : State) : (loadContext d k s).ctxValid = true := rfl
@[simp] theorem loadContext_ctxDir (d : Dir) (k : Schedule) (s : State) : (loadContext d k s).ctxDir = d := rfl
@[simp] theorem loadContext_nr (d : Dir) (k : Schedule) (s : State) : (loadContext d k s).nr = BitVec.ofNat 4 k.nr := rfl
@[simp] theorem loadContext_rk (d : Dir) (k : Schedule) (s : State) : (loadContext d k s).rk = storeKeys s.rk 0 k.keys := rfl
@[simp] theorem loadContext_len (d : Dir) (k : Schedule) (s : State) : (loadContext d k s).len = s.len := rfl
@[simp] theorem loadContext_src (d : Dir) (k : Schedule) (s : State) : (loadContext d k s).src = s.src := rfl
@[simp] theorem loadContext_dst (d : Dir) (k : Schedule) (s : State) : (loadContext d k s).dst = s.dst := rfl
@[simp] theorem loadContext_offset (d : Dir) (k : Schedule) (s : State) : (loadContext d k s).offset = s.offset := rfl
@[simp] theorem loadContext_stPass (d : Dir) (k : Schedule) (s : State) : (loadContext d k s).stPass = s.stPass := rfl
@[simp] theorem loadContext_stRan (d : Dir) (k : Schedule) (s : State) : (loadContext d k s).stRan = s.stRan := rfl
@[simp] theorem loadContext_key (d : Dir) (k : Schedule) (s : State) : (loadContext d k s).key = s.key := rfl
@[simp] theorem loadContext_iv (d : Dir) (k : Schedule) (s : State) : (loadContext d k s).iv = s.iv := rfl
@[simp] theorem loadContext_din (d : Dir) (k : Schedule) (s : State) : (loadContext d k s).din = s.din := rfl
@[simp] theorem loadContext_dout (d : Dir) (k : Schedule) (s : State) : (loadContext d k s).dout = s.dout := rfl
@[simp] theorem loadContext_dbuf (d : Dir) (k : Schedule) (s : State) : (loadContext d k s).dbuf = s.dbuf := rfl
@[simp] theorem loadContext_cfg (d : Dir) (k : Schedule) (s : State) : (loadContext d k s).cfg = s.cfg := rfl
@[simp] theorem loadContext_epoch (d : Dir) (k : Schedule) (s : State) : (loadContext d k s).epoch = s.epoch := rfl
@[simp] theorem loadContext_draws (d : Dir) (k : Schedule) (s : State) : (loadContext d k s).draws = s.draws := rfl
@[simp] theorem loadContext_resp (d : Dir) (k : Schedule) (s : State) : (loadContext d k s).resp = s.resp := rfl
@[simp] theorem loadContext_faults (d : Dir) (k : Schedule) (s : State) : (loadContext d k s).faults = s.faults := rfl
@[simp] theorem loadContext_inputs (d : Dir) (k : Schedule) (s : State) : (loadContext d k s).inputs = s.inputs := rfl

/-! ### dropContext -/

@[simp] theorem dropContext_ie (s : State) : (dropContext s).ie = s.ie := rfl
@[simp] theorem dropContext_seq (s : State) : (dropContext s).seq = s.seq := rfl
@[simp] theorem dropContext_done (s : State) : (dropContext s).done = s.done := rfl
@[simp] theorem dropContext_ovr (s : State) : (dropContext s).ovr = s.ovr := rfl
@[simp] theorem dropContext_err (s : State) : (dropContext s).err = s.err := rfl
@[simp] theorem dropContext_ctxValid (s : State) : (dropContext s).ctxValid = false := rfl
@[simp] theorem dropContext_ctxDir (s : State) : (dropContext s).ctxDir = s.ctxDir := rfl
@[simp] theorem dropContext_nr (s : State) : (dropContext s).nr = s.nr := rfl
@[simp] theorem dropContext_rk (s : State) : (dropContext s).rk = s.rk := rfl
@[simp] theorem dropContext_len (s : State) : (dropContext s).len = s.len := rfl
@[simp] theorem dropContext_src (s : State) : (dropContext s).src = s.src := rfl
@[simp] theorem dropContext_dst (s : State) : (dropContext s).dst = s.dst := rfl
@[simp] theorem dropContext_offset (s : State) : (dropContext s).offset = s.offset := rfl
@[simp] theorem dropContext_stPass (s : State) : (dropContext s).stPass = s.stPass := rfl
@[simp] theorem dropContext_stRan (s : State) : (dropContext s).stRan = s.stRan := rfl
@[simp] theorem dropContext_key (s : State) : (dropContext s).key = s.key := rfl
@[simp] theorem dropContext_iv (s : State) : (dropContext s).iv = s.iv := rfl
@[simp] theorem dropContext_din (s : State) : (dropContext s).din = s.din := rfl
@[simp] theorem dropContext_dout (s : State) : (dropContext s).dout = s.dout := rfl
@[simp] theorem dropContext_dbuf (s : State) : (dropContext s).dbuf = s.dbuf := rfl
@[simp] theorem dropContext_cfg (s : State) : (dropContext s).cfg = s.cfg := rfl
@[simp] theorem dropContext_epoch (s : State) : (dropContext s).epoch = s.epoch := rfl
@[simp] theorem dropContext_draws (s : State) : (dropContext s).draws = s.draws := rfl
@[simp] theorem dropContext_resp (s : State) : (dropContext s).resp = s.resp := rfl
@[simp] theorem dropContext_faults (s : State) : (dropContext s).faults = s.faults := rfl
@[simp] theorem dropContext_inputs (s : State) : (dropContext s).inputs = s.inputs := rfl

/-! ### clearContext -/

@[simp] theorem clearContext_ie (s : State) : (clearContext s).ie = s.ie := rfl
@[simp] theorem clearContext_seq (s : State) : (clearContext s).seq = s.seq := rfl
@[simp] theorem clearContext_done (s : State) : (clearContext s).done = s.done := rfl
@[simp] theorem clearContext_ovr (s : State) : (clearContext s).ovr = s.ovr := rfl
@[simp] theorem clearContext_err (s : State) : (clearContext s).err = s.err := rfl
@[simp] theorem clearContext_ctxValid (s : State) : (clearContext s).ctxValid = false := rfl
@[simp] theorem clearContext_ctxDir (s : State) : (clearContext s).ctxDir = .enc := rfl
@[simp] theorem clearContext_nr (s : State) : (clearContext s).nr = 0 := rfl
@[simp] theorem clearContext_rk (s : State) : (clearContext s).rk = Vector.replicate 15 Block.zero := rfl
@[simp] theorem clearContext_len (s : State) : (clearContext s).len = s.len := rfl
@[simp] theorem clearContext_src (s : State) : (clearContext s).src = s.src := rfl
@[simp] theorem clearContext_dst (s : State) : (clearContext s).dst = s.dst := rfl
@[simp] theorem clearContext_offset (s : State) : (clearContext s).offset = s.offset := rfl
@[simp] theorem clearContext_stPass (s : State) : (clearContext s).stPass = s.stPass := rfl
@[simp] theorem clearContext_stRan (s : State) : (clearContext s).stRan = s.stRan := rfl
@[simp] theorem clearContext_key (s : State) : (clearContext s).key = Vector.replicate 8 Column.zero := rfl
@[simp] theorem clearContext_iv (s : State) : (clearContext s).iv = s.iv := rfl
@[simp] theorem clearContext_din (s : State) : (clearContext s).din = s.din := rfl
@[simp] theorem clearContext_dout (s : State) : (clearContext s).dout = s.dout := rfl
@[simp] theorem clearContext_dbuf (s : State) : (clearContext s).dbuf = s.dbuf := rfl
@[simp] theorem clearContext_cfg (s : State) : (clearContext s).cfg = s.cfg := rfl
@[simp] theorem clearContext_epoch (s : State) : (clearContext s).epoch = s.epoch := rfl
@[simp] theorem clearContext_draws (s : State) : (clearContext s).draws = s.draws := rfl
@[simp] theorem clearContext_resp (s : State) : (clearContext s).resp = s.resp := rfl
@[simp] theorem clearContext_faults (s : State) : (clearContext s).faults = s.faults := rfl
@[simp] theorem clearContext_inputs (s : State) : (clearContext s).inputs = s.inputs := rfl

/-! ### feedBack -/

@[simp] theorem feedBack_ie (c : Byte) (s : State) : (feedBack c s).ie = s.ie := rfl
@[simp] theorem feedBack_seq (c : Byte) (s : State) : (feedBack c s).seq = s.seq := rfl
@[simp] theorem feedBack_done (c : Byte) (s : State) : (feedBack c s).done = s.done := rfl
@[simp] theorem feedBack_ovr (c : Byte) (s : State) : (feedBack c s).ovr = s.ovr := rfl
@[simp] theorem feedBack_err (c : Byte) (s : State) : (feedBack c s).err = s.err := rfl
@[simp] theorem feedBack_ctxValid (c : Byte) (s : State) : (feedBack c s).ctxValid = s.ctxValid := rfl
@[simp] theorem feedBack_ctxDir (c : Byte) (s : State) : (feedBack c s).ctxDir = s.ctxDir := rfl
@[simp] theorem feedBack_nr (c : Byte) (s : State) : (feedBack c s).nr = s.nr := rfl
@[simp] theorem feedBack_rk (c : Byte) (s : State) : (feedBack c s).rk = s.rk := rfl
@[simp] theorem feedBack_len (c : Byte) (s : State) : (feedBack c s).len = s.len := rfl
@[simp] theorem feedBack_src (c : Byte) (s : State) : (feedBack c s).src = s.src := rfl
@[simp] theorem feedBack_dst (c : Byte) (s : State) : (feedBack c s).dst = s.dst := rfl
@[simp] theorem feedBack_offset (c : Byte) (s : State) : (feedBack c s).offset = s.offset + 1 := rfl
@[simp] theorem feedBack_stPass (c : Byte) (s : State) : (feedBack c s).stPass = s.stPass := rfl
@[simp] theorem feedBack_stRan (c : Byte) (s : State) : (feedBack c s).stRan = s.stRan := rfl
@[simp] theorem feedBack_key (c : Byte) (s : State) : (feedBack c s).key = s.key := rfl
@[simp] theorem feedBack_iv (c : Byte) (s : State) : (feedBack c s).iv = setBlockByte s.iv s.offset.toNat c := rfl
@[simp] theorem feedBack_din (c : Byte) (s : State) : (feedBack c s).din = s.din := rfl
@[simp] theorem feedBack_dout (c : Byte) (s : State) : (feedBack c s).dout = s.dout := rfl
@[simp] theorem feedBack_dbuf (c : Byte) (s : State) : (feedBack c s).dbuf = s.dbuf := rfl
@[simp] theorem feedBack_cfg (c : Byte) (s : State) : (feedBack c s).cfg = s.cfg := rfl
@[simp] theorem feedBack_epoch (c : Byte) (s : State) : (feedBack c s).epoch = s.epoch := rfl
@[simp] theorem feedBack_draws (c : Byte) (s : State) : (feedBack c s).draws = s.draws := rfl
@[simp] theorem feedBack_resp (c : Byte) (s : State) : (feedBack c s).resp = s.resp := rfl
@[simp] theorem feedBack_faults (c : Byte) (s : State) : (feedBack c s).faults = s.faults := rfl
@[simp] theorem feedBack_inputs (c : Byte) (s : State) : (feedBack c s).inputs = s.inputs := rfl

/-! ### writeStResult -/

@[simp] theorem writeStResult_ie (bits : BitVec 12) (s : State) : (writeStResult bits s).ie = s.ie := rfl
@[simp] theorem writeStResult_seq (bits : BitVec 12) (s : State) : (writeStResult bits s).seq = s.seq := rfl
@[simp] theorem writeStResult_done (bits : BitVec 12) (s : State) : (writeStResult bits s).done = s.done := rfl
@[simp] theorem writeStResult_ovr (bits : BitVec 12) (s : State) : (writeStResult bits s).ovr = s.ovr := rfl
@[simp] theorem writeStResult_err (bits : BitVec 12) (s : State) : (writeStResult bits s).err = s.err := rfl
@[simp] theorem writeStResult_ctxValid (bits : BitVec 12) (s : State) : (writeStResult bits s).ctxValid = s.ctxValid := rfl
@[simp] theorem writeStResult_ctxDir (bits : BitVec 12) (s : State) : (writeStResult bits s).ctxDir = s.ctxDir := rfl
@[simp] theorem writeStResult_nr (bits : BitVec 12) (s : State) : (writeStResult bits s).nr = s.nr := rfl
@[simp] theorem writeStResult_rk (bits : BitVec 12) (s : State) : (writeStResult bits s).rk = s.rk := rfl
@[simp] theorem writeStResult_len (bits : BitVec 12) (s : State) : (writeStResult bits s).len = s.len := rfl
@[simp] theorem writeStResult_src (bits : BitVec 12) (s : State) : (writeStResult bits s).src = s.src := rfl
@[simp] theorem writeStResult_dst (bits : BitVec 12) (s : State) : (writeStResult bits s).dst = s.dst := rfl
@[simp] theorem writeStResult_offset (bits : BitVec 12) (s : State) : (writeStResult bits s).offset = s.offset := rfl
@[simp] theorem writeStResult_stPass (bits : BitVec 12) (s : State) : (writeStResult bits s).stPass = bits := rfl
@[simp] theorem writeStResult_stRan (bits : BitVec 12) (s : State) : (writeStResult bits s).stRan = true := rfl
@[simp] theorem writeStResult_key (bits : BitVec 12) (s : State) : (writeStResult bits s).key = s.key := rfl
@[simp] theorem writeStResult_iv (bits : BitVec 12) (s : State) : (writeStResult bits s).iv = s.iv := rfl
@[simp] theorem writeStResult_din (bits : BitVec 12) (s : State) : (writeStResult bits s).din = s.din := rfl
@[simp] theorem writeStResult_dout (bits : BitVec 12) (s : State) : (writeStResult bits s).dout = s.dout := rfl
@[simp] theorem writeStResult_dbuf (bits : BitVec 12) (s : State) : (writeStResult bits s).dbuf = s.dbuf := rfl
@[simp] theorem writeStResult_cfg (bits : BitVec 12) (s : State) : (writeStResult bits s).cfg = s.cfg := rfl
@[simp] theorem writeStResult_epoch (bits : BitVec 12) (s : State) : (writeStResult bits s).epoch = s.epoch := rfl
@[simp] theorem writeStResult_draws (bits : BitVec 12) (s : State) : (writeStResult bits s).draws = s.draws := rfl
@[simp] theorem writeStResult_resp (bits : BitVec 12) (s : State) : (writeStResult bits s).resp = s.resp := rfl
@[simp] theorem writeStResult_faults (bits : BitVec 12) (s : State) : (writeStResult bits s).faults = s.faults := rfl
@[simp] theorem writeStResult_inputs (bits : BitVec 12) (s : State) : (writeStResult bits s).inputs = s.inputs := rfl

/-! ### clearStatus -/

@[simp] theorem clearStatus_ie (v : Word) (s : State) : (clearStatus v s).ie = s.ie := rfl
@[simp] theorem clearStatus_seq (v : Word) (s : State) : (clearStatus v s).seq = s.seq := rfl
@[simp] theorem clearStatus_done (v : Word) (s : State) : (clearStatus v s).done = (s.done && !v.getLsbD 1) := rfl
@[simp] theorem clearStatus_ovr (v : Word) (s : State) : (clearStatus v s).ovr = (s.ovr && !v.getLsbD 2) := rfl
@[simp] theorem clearStatus_err (v : Word) (s : State) : (clearStatus v s).err = s.err := rfl
@[simp] theorem clearStatus_ctxValid (v : Word) (s : State) : (clearStatus v s).ctxValid = s.ctxValid := rfl
@[simp] theorem clearStatus_ctxDir (v : Word) (s : State) : (clearStatus v s).ctxDir = s.ctxDir := rfl
@[simp] theorem clearStatus_nr (v : Word) (s : State) : (clearStatus v s).nr = s.nr := rfl
@[simp] theorem clearStatus_rk (v : Word) (s : State) : (clearStatus v s).rk = s.rk := rfl
@[simp] theorem clearStatus_len (v : Word) (s : State) : (clearStatus v s).len = s.len := rfl
@[simp] theorem clearStatus_src (v : Word) (s : State) : (clearStatus v s).src = s.src := rfl
@[simp] theorem clearStatus_dst (v : Word) (s : State) : (clearStatus v s).dst = s.dst := rfl
@[simp] theorem clearStatus_offset (v : Word) (s : State) : (clearStatus v s).offset = s.offset := rfl
@[simp] theorem clearStatus_stPass (v : Word) (s : State) : (clearStatus v s).stPass = s.stPass := rfl
@[simp] theorem clearStatus_stRan (v : Word) (s : State) : (clearStatus v s).stRan = s.stRan := rfl
@[simp] theorem clearStatus_key (v : Word) (s : State) : (clearStatus v s).key = s.key := rfl
@[simp] theorem clearStatus_iv (v : Word) (s : State) : (clearStatus v s).iv = s.iv := rfl
@[simp] theorem clearStatus_din (v : Word) (s : State) : (clearStatus v s).din = s.din := rfl
@[simp] theorem clearStatus_dout (v : Word) (s : State) : (clearStatus v s).dout = s.dout := rfl
@[simp] theorem clearStatus_dbuf (v : Word) (s : State) : (clearStatus v s).dbuf = s.dbuf := rfl
@[simp] theorem clearStatus_cfg (v : Word) (s : State) : (clearStatus v s).cfg = s.cfg := rfl
@[simp] theorem clearStatus_epoch (v : Word) (s : State) : (clearStatus v s).epoch = s.epoch := rfl
@[simp] theorem clearStatus_draws (v : Word) (s : State) : (clearStatus v s).draws = s.draws := rfl
@[simp] theorem clearStatus_resp (v : Word) (s : State) : (clearStatus v s).resp = s.resp := rfl
@[simp] theorem clearStatus_faults (v : Word) (s : State) : (clearStatus v s).faults = s.faults := rfl
@[simp] theorem clearStatus_inputs (v : Word) (s : State) : (clearStatus v s).inputs = s.inputs := rfl

/-! ### respondOkay -/

@[simp] theorem respondOkay_ie (data : Option Word) (s : State) : (respondOkay data s).ie = s.ie := rfl
@[simp] theorem respondOkay_seq (data : Option Word) (s : State) : (respondOkay data s).seq = s.seq := rfl
@[simp] theorem respondOkay_done (data : Option Word) (s : State) : (respondOkay data s).done = s.done := rfl
@[simp] theorem respondOkay_ovr (data : Option Word) (s : State) : (respondOkay data s).ovr = s.ovr := rfl
@[simp] theorem respondOkay_err (data : Option Word) (s : State) : (respondOkay data s).err = s.err := rfl
@[simp] theorem respondOkay_ctxValid (data : Option Word) (s : State) : (respondOkay data s).ctxValid = s.ctxValid := rfl
@[simp] theorem respondOkay_ctxDir (data : Option Word) (s : State) : (respondOkay data s).ctxDir = s.ctxDir := rfl
@[simp] theorem respondOkay_nr (data : Option Word) (s : State) : (respondOkay data s).nr = s.nr := rfl
@[simp] theorem respondOkay_rk (data : Option Word) (s : State) : (respondOkay data s).rk = s.rk := rfl
@[simp] theorem respondOkay_len (data : Option Word) (s : State) : (respondOkay data s).len = s.len := rfl
@[simp] theorem respondOkay_src (data : Option Word) (s : State) : (respondOkay data s).src = s.src := rfl
@[simp] theorem respondOkay_dst (data : Option Word) (s : State) : (respondOkay data s).dst = s.dst := rfl
@[simp] theorem respondOkay_offset (data : Option Word) (s : State) : (respondOkay data s).offset = s.offset := rfl
@[simp] theorem respondOkay_stPass (data : Option Word) (s : State) : (respondOkay data s).stPass = s.stPass := rfl
@[simp] theorem respondOkay_stRan (data : Option Word) (s : State) : (respondOkay data s).stRan = s.stRan := rfl
@[simp] theorem respondOkay_key (data : Option Word) (s : State) : (respondOkay data s).key = s.key := rfl
@[simp] theorem respondOkay_iv (data : Option Word) (s : State) : (respondOkay data s).iv = s.iv := rfl
@[simp] theorem respondOkay_din (data : Option Word) (s : State) : (respondOkay data s).din = s.din := rfl
@[simp] theorem respondOkay_dout (data : Option Word) (s : State) : (respondOkay data s).dout = s.dout := rfl
@[simp] theorem respondOkay_dbuf (data : Option Word) (s : State) : (respondOkay data s).dbuf = s.dbuf := rfl
@[simp] theorem respondOkay_cfg (data : Option Word) (s : State) : (respondOkay data s).cfg = s.cfg := rfl
@[simp] theorem respondOkay_epoch (data : Option Word) (s : State) : (respondOkay data s).epoch = s.epoch := rfl
@[simp] theorem respondOkay_draws (data : Option Word) (s : State) : (respondOkay data s).draws = s.draws := rfl
@[simp] theorem respondOkay_resp (data : Option Word) (s : State) : (respondOkay data s).resp = some ⟨.okay, data⟩ := rfl
@[simp] theorem respondOkay_faults (data : Option Word) (s : State) : (respondOkay data s).faults = s.faults := rfl
@[simp] theorem respondOkay_inputs (data : Option Word) (s : State) : (respondOkay data s).inputs = s.inputs := rfl

/-! ### respondError -/

@[simp] theorem respondError_ie (a : Access) (data : Option Word) (s : State) : (respondError a data s).ie = s.ie := rfl
@[simp] theorem respondError_seq (a : Access) (data : Option Word) (s : State) : (respondError a data s).seq = s.seq := rfl
@[simp] theorem respondError_done (a : Access) (data : Option Word) (s : State) : (respondError a data s).done = s.done := rfl
@[simp] theorem respondError_ovr (a : Access) (data : Option Word) (s : State) : (respondError a data s).ovr = s.ovr := rfl
@[simp] theorem respondError_err (a : Access) (data : Option Word) (s : State) : (respondError a data s).err = s.err := rfl
@[simp] theorem respondError_ctxValid (a : Access) (data : Option Word) (s : State) : (respondError a data s).ctxValid = s.ctxValid := rfl
@[simp] theorem respondError_ctxDir (a : Access) (data : Option Word) (s : State) : (respondError a data s).ctxDir = s.ctxDir := rfl
@[simp] theorem respondError_nr (a : Access) (data : Option Word) (s : State) : (respondError a data s).nr = s.nr := rfl
@[simp] theorem respondError_rk (a : Access) (data : Option Word) (s : State) : (respondError a data s).rk = s.rk := rfl
@[simp] theorem respondError_len (a : Access) (data : Option Word) (s : State) : (respondError a data s).len = s.len := rfl
@[simp] theorem respondError_src (a : Access) (data : Option Word) (s : State) : (respondError a data s).src = s.src := rfl
@[simp] theorem respondError_dst (a : Access) (data : Option Word) (s : State) : (respondError a data s).dst = s.dst := rfl
@[simp] theorem respondError_offset (a : Access) (data : Option Word) (s : State) : (respondError a data s).offset = s.offset := rfl
@[simp] theorem respondError_stPass (a : Access) (data : Option Word) (s : State) : (respondError a data s).stPass = s.stPass := rfl
@[simp] theorem respondError_stRan (a : Access) (data : Option Word) (s : State) : (respondError a data s).stRan = s.stRan := rfl
@[simp] theorem respondError_key (a : Access) (data : Option Word) (s : State) : (respondError a data s).key = s.key := rfl
@[simp] theorem respondError_iv (a : Access) (data : Option Word) (s : State) : (respondError a data s).iv = s.iv := rfl
@[simp] theorem respondError_din (a : Access) (data : Option Word) (s : State) : (respondError a data s).din = s.din := rfl
@[simp] theorem respondError_dout (a : Access) (data : Option Word) (s : State) : (respondError a data s).dout = s.dout := rfl
@[simp] theorem respondError_dbuf (a : Access) (data : Option Word) (s : State) : (respondError a data s).dbuf = s.dbuf := rfl
@[simp] theorem respondError_cfg (a : Access) (data : Option Word) (s : State) : (respondError a data s).cfg = s.cfg := rfl
@[simp] theorem respondError_epoch (a : Access) (data : Option Word) (s : State) : (respondError a data s).epoch = s.epoch := rfl
@[simp] theorem respondError_draws (a : Access) (data : Option Word) (s : State) : (respondError a data s).draws = s.draws := rfl
@[simp] theorem respondError_resp (a : Access) (data : Option Word) (s : State) : (respondError a data s).resp = some ⟨.error, data⟩ := rfl
@[simp] theorem respondError_faults (a : Access) (data : Option Word) (s : State) : (respondError a data s).faults = .busError a :: s.faults := rfl
@[simp] theorem respondError_inputs (a : Access) (data : Option Word) (s : State) : (respondError a data s).inputs = s.inputs := rfl

/-! ### countDraw -/

@[simp] theorem countDraw_ie (s : State) : (countDraw s).ie = s.ie := rfl
@[simp] theorem countDraw_seq (s : State) : (countDraw s).seq = s.seq := rfl
@[simp] theorem countDraw_done (s : State) : (countDraw s).done = s.done := rfl
@[simp] theorem countDraw_ovr (s : State) : (countDraw s).ovr = s.ovr := rfl
@[simp] theorem countDraw_err (s : State) : (countDraw s).err = s.err := rfl
@[simp] theorem countDraw_ctxValid (s : State) : (countDraw s).ctxValid = s.ctxValid := rfl
@[simp] theorem countDraw_ctxDir (s : State) : (countDraw s).ctxDir = s.ctxDir := rfl
@[simp] theorem countDraw_nr (s : State) : (countDraw s).nr = s.nr := rfl
@[simp] theorem countDraw_rk (s : State) : (countDraw s).rk = s.rk := rfl
@[simp] theorem countDraw_len (s : State) : (countDraw s).len = s.len := rfl
@[simp] theorem countDraw_src (s : State) : (countDraw s).src = s.src := rfl
@[simp] theorem countDraw_dst (s : State) : (countDraw s).dst = s.dst := rfl
@[simp] theorem countDraw_offset (s : State) : (countDraw s).offset = s.offset := rfl
@[simp] theorem countDraw_stPass (s : State) : (countDraw s).stPass = s.stPass := rfl
@[simp] theorem countDraw_stRan (s : State) : (countDraw s).stRan = s.stRan := rfl
@[simp] theorem countDraw_key (s : State) : (countDraw s).key = s.key := rfl
@[simp] theorem countDraw_iv (s : State) : (countDraw s).iv = s.iv := rfl
@[simp] theorem countDraw_din (s : State) : (countDraw s).din = s.din := rfl
@[simp] theorem countDraw_dout (s : State) : (countDraw s).dout = s.dout := rfl
@[simp] theorem countDraw_dbuf (s : State) : (countDraw s).dbuf = s.dbuf := rfl
@[simp] theorem countDraw_cfg (s : State) : (countDraw s).cfg = s.cfg := rfl
@[simp] theorem countDraw_epoch (s : State) : (countDraw s).epoch = s.epoch := rfl
@[simp] theorem countDraw_draws (s : State) : (countDraw s).draws = s.draws + 1 := rfl
@[simp] theorem countDraw_resp (s : State) : (countDraw s).resp = s.resp := rfl
@[simp] theorem countDraw_faults (s : State) : (countDraw s).faults = s.faults := rfl
@[simp] theorem countDraw_inputs (s : State) : (countDraw s).inputs = s.inputs := rfl

/-! ### dropWrite -/

@[simp] theorem dropWrite_ie (s : State) : (dropWrite s).ie = s.ie := rfl
@[simp] theorem dropWrite_seq (s : State) : (dropWrite s).seq = s.seq := rfl
@[simp] theorem dropWrite_done (s : State) : (dropWrite s).done = s.done := rfl
@[simp] theorem dropWrite_ovr (s : State) : (dropWrite s).ovr = true := rfl
@[simp] theorem dropWrite_err (s : State) : (dropWrite s).err = s.err := rfl
@[simp] theorem dropWrite_ctxValid (s : State) : (dropWrite s).ctxValid = s.ctxValid := rfl
@[simp] theorem dropWrite_ctxDir (s : State) : (dropWrite s).ctxDir = s.ctxDir := rfl
@[simp] theorem dropWrite_nr (s : State) : (dropWrite s).nr = s.nr := rfl
@[simp] theorem dropWrite_rk (s : State) : (dropWrite s).rk = s.rk := rfl
@[simp] theorem dropWrite_len (s : State) : (dropWrite s).len = s.len := rfl
@[simp] theorem dropWrite_src (s : State) : (dropWrite s).src = s.src := rfl
@[simp] theorem dropWrite_dst (s : State) : (dropWrite s).dst = s.dst := rfl
@[simp] theorem dropWrite_offset (s : State) : (dropWrite s).offset = s.offset := rfl
@[simp] theorem dropWrite_stPass (s : State) : (dropWrite s).stPass = s.stPass := rfl
@[simp] theorem dropWrite_stRan (s : State) : (dropWrite s).stRan = s.stRan := rfl
@[simp] theorem dropWrite_key (s : State) : (dropWrite s).key = s.key := rfl
@[simp] theorem dropWrite_iv (s : State) : (dropWrite s).iv = s.iv := rfl
@[simp] theorem dropWrite_din (s : State) : (dropWrite s).din = s.din := rfl
@[simp] theorem dropWrite_dout (s : State) : (dropWrite s).dout = s.dout := rfl
@[simp] theorem dropWrite_dbuf (s : State) : (dropWrite s).dbuf = s.dbuf := rfl
@[simp] theorem dropWrite_cfg (s : State) : (dropWrite s).cfg = s.cfg := rfl
@[simp] theorem dropWrite_epoch (s : State) : (dropWrite s).epoch = s.epoch := rfl
@[simp] theorem dropWrite_draws (s : State) : (dropWrite s).draws = s.draws := rfl
@[simp] theorem dropWrite_resp (s : State) : (dropWrite s).resp = some ⟨.okay, none⟩ := rfl
@[simp] theorem dropWrite_faults (s : State) : (dropWrite s).faults = s.faults := rfl
@[simp] theorem dropWrite_inputs (s : State) : (dropWrite s).inputs = s.inputs := rfl

/-! ### setIv -/

@[simp] theorem setIv_ie (v : Block) (s : State) : (setIv v s).ie = s.ie := rfl
@[simp] theorem setIv_seq (v : Block) (s : State) : (setIv v s).seq = s.seq := rfl
@[simp] theorem setIv_done (v : Block) (s : State) : (setIv v s).done = s.done := rfl
@[simp] theorem setIv_ovr (v : Block) (s : State) : (setIv v s).ovr = s.ovr := rfl
@[simp] theorem setIv_err (v : Block) (s : State) : (setIv v s).err = s.err := rfl
@[simp] theorem setIv_ctxValid (v : Block) (s : State) : (setIv v s).ctxValid = s.ctxValid := rfl
@[simp] theorem setIv_ctxDir (v : Block) (s : State) : (setIv v s).ctxDir = s.ctxDir := rfl
@[simp] theorem setIv_nr (v : Block) (s : State) : (setIv v s).nr = s.nr := rfl
@[simp] theorem setIv_rk (v : Block) (s : State) : (setIv v s).rk = s.rk := rfl
@[simp] theorem setIv_len (v : Block) (s : State) : (setIv v s).len = s.len := rfl
@[simp] theorem setIv_src (v : Block) (s : State) : (setIv v s).src = s.src := rfl
@[simp] theorem setIv_dst (v : Block) (s : State) : (setIv v s).dst = s.dst := rfl
@[simp] theorem setIv_offset (v : Block) (s : State) : (setIv v s).offset = s.offset := rfl
@[simp] theorem setIv_stPass (v : Block) (s : State) : (setIv v s).stPass = s.stPass := rfl
@[simp] theorem setIv_stRan (v : Block) (s : State) : (setIv v s).stRan = s.stRan := rfl
@[simp] theorem setIv_key (v : Block) (s : State) : (setIv v s).key = s.key := rfl
@[simp] theorem setIv_iv (v : Block) (s : State) : (setIv v s).iv = v := rfl
@[simp] theorem setIv_din (v : Block) (s : State) : (setIv v s).din = s.din := rfl
@[simp] theorem setIv_dout (v : Block) (s : State) : (setIv v s).dout = s.dout := rfl
@[simp] theorem setIv_dbuf (v : Block) (s : State) : (setIv v s).dbuf = s.dbuf := rfl
@[simp] theorem setIv_cfg (v : Block) (s : State) : (setIv v s).cfg = s.cfg := rfl
@[simp] theorem setIv_epoch (v : Block) (s : State) : (setIv v s).epoch = s.epoch := rfl
@[simp] theorem setIv_draws (v : Block) (s : State) : (setIv v s).draws = s.draws := rfl
@[simp] theorem setIv_resp (v : Block) (s : State) : (setIv v s).resp = s.resp := rfl
@[simp] theorem setIv_faults (v : Block) (s : State) : (setIv v s).faults = s.faults := rfl
@[simp] theorem setIv_inputs (v : Block) (s : State) : (setIv v s).inputs = s.inputs := rfl

/-! ### setDout -/

@[simp] theorem setDout_ie (v : Block) (s : State) : (setDout v s).ie = s.ie := rfl
@[simp] theorem setDout_seq (v : Block) (s : State) : (setDout v s).seq = s.seq := rfl
@[simp] theorem setDout_done (v : Block) (s : State) : (setDout v s).done = s.done := rfl
@[simp] theorem setDout_ovr (v : Block) (s : State) : (setDout v s).ovr = s.ovr := rfl
@[simp] theorem setDout_err (v : Block) (s : State) : (setDout v s).err = s.err := rfl
@[simp] theorem setDout_ctxValid (v : Block) (s : State) : (setDout v s).ctxValid = s.ctxValid := rfl
@[simp] theorem setDout_ctxDir (v : Block) (s : State) : (setDout v s).ctxDir = s.ctxDir := rfl
@[simp] theorem setDout_nr (v : Block) (s : State) : (setDout v s).nr = s.nr := rfl
@[simp] theorem setDout_rk (v : Block) (s : State) : (setDout v s).rk = s.rk := rfl
@[simp] theorem setDout_len (v : Block) (s : State) : (setDout v s).len = s.len := rfl
@[simp] theorem setDout_src (v : Block) (s : State) : (setDout v s).src = s.src := rfl
@[simp] theorem setDout_dst (v : Block) (s : State) : (setDout v s).dst = s.dst := rfl
@[simp] theorem setDout_offset (v : Block) (s : State) : (setDout v s).offset = s.offset := rfl
@[simp] theorem setDout_stPass (v : Block) (s : State) : (setDout v s).stPass = s.stPass := rfl
@[simp] theorem setDout_stRan (v : Block) (s : State) : (setDout v s).stRan = s.stRan := rfl
@[simp] theorem setDout_key (v : Block) (s : State) : (setDout v s).key = s.key := rfl
@[simp] theorem setDout_iv (v : Block) (s : State) : (setDout v s).iv = s.iv := rfl
@[simp] theorem setDout_din (v : Block) (s : State) : (setDout v s).din = s.din := rfl
@[simp] theorem setDout_dout (v : Block) (s : State) : (setDout v s).dout = v := rfl
@[simp] theorem setDout_dbuf (v : Block) (s : State) : (setDout v s).dbuf = s.dbuf := rfl
@[simp] theorem setDout_cfg (v : Block) (s : State) : (setDout v s).cfg = s.cfg := rfl
@[simp] theorem setDout_epoch (v : Block) (s : State) : (setDout v s).epoch = s.epoch := rfl
@[simp] theorem setDout_draws (v : Block) (s : State) : (setDout v s).draws = s.draws := rfl
@[simp] theorem setDout_resp (v : Block) (s : State) : (setDout v s).resp = s.resp := rfl
@[simp] theorem setDout_faults (v : Block) (s : State) : (setDout v s).faults = s.faults := rfl
@[simp] theorem setDout_inputs (v : Block) (s : State) : (setDout v s).inputs = s.inputs := rfl

/-! ### resetInput -/

@[simp] theorem resetInput_ie (s : State) : (resetInput s).ie = State.reset.ie := rfl
@[simp] theorem resetInput_seq (s : State) : (resetInput s).seq = State.reset.seq := rfl
@[simp] theorem resetInput_done (s : State) : (resetInput s).done = State.reset.done := rfl
@[simp] theorem resetInput_ovr (s : State) : (resetInput s).ovr = State.reset.ovr := rfl
@[simp] theorem resetInput_err (s : State) : (resetInput s).err = State.reset.err := rfl
@[simp] theorem resetInput_ctxValid (s : State) : (resetInput s).ctxValid = State.reset.ctxValid := rfl
@[simp] theorem resetInput_ctxDir (s : State) : (resetInput s).ctxDir = State.reset.ctxDir := rfl
@[simp] theorem resetInput_nr (s : State) : (resetInput s).nr = State.reset.nr := rfl
@[simp] theorem resetInput_rk (s : State) : (resetInput s).rk = State.reset.rk := rfl
@[simp] theorem resetInput_len (s : State) : (resetInput s).len = State.reset.len := rfl
@[simp] theorem resetInput_src (s : State) : (resetInput s).src = State.reset.src := rfl
@[simp] theorem resetInput_dst (s : State) : (resetInput s).dst = State.reset.dst := rfl
@[simp] theorem resetInput_offset (s : State) : (resetInput s).offset = State.reset.offset := rfl
@[simp] theorem resetInput_stPass (s : State) : (resetInput s).stPass = State.reset.stPass := rfl
@[simp] theorem resetInput_stRan (s : State) : (resetInput s).stRan = State.reset.stRan := rfl
@[simp] theorem resetInput_key (s : State) : (resetInput s).key = State.reset.key := rfl
@[simp] theorem resetInput_iv (s : State) : (resetInput s).iv = State.reset.iv := rfl
@[simp] theorem resetInput_din (s : State) : (resetInput s).din = State.reset.din := rfl
@[simp] theorem resetInput_dout (s : State) : (resetInput s).dout = State.reset.dout := rfl
@[simp] theorem resetInput_dbuf (s : State) : (resetInput s).dbuf = State.reset.dbuf := rfl
@[simp] theorem resetInput_cfg (s : State) : (resetInput s).cfg = s.cfg := rfl
@[simp] theorem resetInput_epoch (s : State) : (resetInput s).epoch = s.epoch + 1 := rfl
@[simp] theorem resetInput_draws (s : State) : (resetInput s).draws = s.draws := rfl
@[simp] theorem resetInput_resp (s : State) : (resetInput s).resp = State.reset.resp := rfl
@[simp] theorem resetInput_faults (s : State) : (resetInput s).faults = s.faults := rfl
@[simp] theorem resetInput_inputs (s : State) : (resetInput s).inputs = s.inputs := rfl

end Sys2Proof.Machine
end

