-- ==== Sys2Proof/Laws/Memory.lean ====
section
/-!
SUPPORT. The laws of `DBUF`: a read after a write, the canonical form, and what the wider reads and writes do.
-/

namespace Sys2Proof.Machine

/-! ### The list of written bytes -/

theorem Memory.get?_set (m : Memory) (a : Nat) (v : Byte) (b : Nat) :
    Memory.get? (Memory.set m a v) b = if b = a then some v else Memory.get? m b := by
  induction m with
  | nil => simp [Memory.set, Memory.get?]
  | cons cell rest ih =>
    obtain ⟨c, w⟩ := cell
    simp only [Memory.set]
    split
    · simp [Memory.get?]
    · split
      · subst_vars
        simp only [Memory.get?]
        split <;> rfl
      · simp only [Memory.get?, ih]
        split
        · subst_vars
          rw [if_neg (by omega)]
        · rfl

theorem Memory.rising_mono {m : Memory} {lo lo' : Nat} (h : lo' ≤ lo) (hm : Memory.rising lo m = true) :
    Memory.rising lo' m = true := by
  cases m with
  | nil => rfl
  | cons cell rest =>
    simp only [Memory.rising, Bool.and_eq_true, decide_eq_true_eq] at hm ⊢
    exact ⟨by omega, hm.2⟩

theorem Memory.rising_set {m : Memory} {lo a : Nat} {v : Byte} (hlo : lo ≤ a) (hm : Memory.rising lo m = true) :
    Memory.rising lo (Memory.set m a v) = true := by
  induction m generalizing lo with
  | nil => simpa [Memory.set, Memory.rising] using hlo
  | cons cell rest ih =>
    obtain ⟨c, w⟩ := cell
    simp only [Memory.rising, Bool.and_eq_true, decide_eq_true_eq] at hm
    simp only [Memory.set]
    split
    · simp only [Memory.rising, Bool.and_eq_true, decide_eq_true_eq]
      exact ⟨hlo, by omega, hm.2⟩
    · split
      · subst_vars
        simpa only [Memory.rising, Bool.and_eq_true, decide_eq_true_eq] using hm
      · simp only [Memory.rising, Bool.and_eq_true, decide_eq_true_eq]
        exact ⟨hm.1, ih (by omega) hm.2⟩

theorem Memory.all_set {m : Memory} {p : Host.Cell → Bool} {a : Nat} {v : Byte} (hp : p (a, v) = true)
    (hm : m.all p = true) : (Memory.set m a v).all p = true := by
  induction m with
  | nil => simp [Memory.set, hp]
  | cons cell rest ih =>
    obtain ⟨c, w⟩ := cell
    simp only [List.all_cons, Bool.and_eq_true] at hm
    simp only [Memory.set]
    split
    · simp [hp, hm.1, hm.2]
    · split
      · simp [hp, hm.2]
      · simp [hm.1, ih hm.2]

theorem Memory.wf_nil (size : Nat) : Memory.wf size [] = true := rfl

/-- A write inside the buffer keeps the canonical form. -/
theorem Memory.wf_set {size : Nat} {m : Memory} {a : Nat} {v : Byte} (ha : a < size) (hm : Memory.wf size m = true) :
    Memory.wf size (Memory.set m a v) = true := by
  simp only [Memory.wf, Bool.and_eq_true] at hm ⊢
  exact ⟨Memory.rising_set (Nat.zero_le a) hm.1, Memory.all_set (by simpa using ha) hm.2⟩

/-- The memory after reset has the canonical form. -/
theorem reset_memory_wf : Memory.wf State.reset.cfg.dbufSize State.reset.dbuf = true := rfl

/-! ### One byte of DBUF -/

theorem dbufByte_setDbufByte (s : State) (a : Nat) (v : Byte) (b : Nat) :
    dbufByte (setDbufByte s a v) b = if b = a then v else dbufByte s b := by
  simp only [dbufByte, setDbufByte, Memory.get?_set]
  split <;> split <;> simp_all

/-- Reading a byte depends on the written bytes and on which reset the block is in, and on nothing else. -/
theorem dbufByte_congr {s t : State} (hd : t.dbuf = s.dbuf) (he : t.epoch = s.epoch) (a : Nat) :
    dbufByte t a = dbufByte s a := by
  simp only [dbufByte, hd, he]

/-! ### Wider writes -/

/-- A wide write changes the data buffer and nothing else. -/
theorem memWrite_frame (s : State) (a : Nat) (vs : List Byte) :
    memWrite s a vs = { s with dbuf := (memWrite s a vs).dbuf } := by
  induction vs generalizing s a with
  | nil => rfl
  | cons v vs ih =>
    simp only [memWrite]
    rw [ih]
    rfl

@[simp] theorem memWrite_ie (s : State) (a : Nat) (vs : List Byte) : (memWrite s a vs).ie = s.ie := by
  rw [memWrite_frame]

@[simp] theorem memWrite_seq (s : State) (a : Nat) (vs : List Byte) : (memWrite s a vs).seq = s.seq := by
  rw [memWrite_frame]

@[simp] theorem memWrite_done (s : State) (a : Nat) (vs : List Byte) : (memWrite s a vs).done = s.done := by
  rw [memWrite_frame]

@[simp] theorem memWrite_ovr (s : State) (a : Nat) (vs : List Byte) : (memWrite s a vs).ovr = s.ovr := by
  rw [memWrite_frame]

@[simp] theorem memWrite_err (s : State) (a : Nat) (vs : List Byte) : (memWrite s a vs).err = s.err := by
  rw [memWrite_frame]

@[simp] theorem memWrite_ctxValid (s : State) (a : Nat) (vs : List Byte) : (memWrite s a vs).ctxValid = s.ctxValid := by
  rw [memWrite_frame]

@[simp] theorem memWrite_ctxDir (s : State) (a : Nat) (vs : List Byte) : (memWrite s a vs).ctxDir = s.ctxDir := by
  rw [memWrite_frame]

@[simp] theorem memWrite_nr (s : State) (a : Nat) (vs : List Byte) : (memWrite s a vs).nr = s.nr := by
  rw [memWrite_frame]

@[simp] theorem memWrite_rk (s : State) (a : Nat) (vs : List Byte) : (memWrite s a vs).rk = s.rk := by
  rw [memWrite_frame]

@[simp] theorem memWrite_len (s : State) (a : Nat) (vs : List Byte) : (memWrite s a vs).len = s.len := by
  rw [memWrite_frame]

@[simp] theorem memWrite_src (s : State) (a : Nat) (vs : List Byte) : (memWrite s a vs).src = s.src := by
  rw [memWrite_frame]

@[simp] theorem memWrite_dst (s : State) (a : Nat) (vs : List Byte) : (memWrite s a vs).dst = s.dst := by
  rw [memWrite_frame]

@[simp] theorem memWrite_offset (s : State) (a : Nat) (vs : List Byte) : (memWrite s a vs).offset = s.offset := by
  rw [memWrite_frame]

@[simp] theorem memWrite_stPass (s : State) (a : Nat) (vs : List Byte) : (memWrite s a vs).stPass = s.stPass := by
  rw [memWrite_frame]

@[simp] theorem memWrite_stRan (s : State) (a : Nat) (vs : List Byte) : (memWrite s a vs).stRan = s.stRan := by
  rw [memWrite_frame]

@[simp] theorem memWrite_key (s : State) (a : Nat) (vs : List Byte) : (memWrite s a vs).key = s.key := by
  rw [memWrite_frame]

@[simp] theorem memWrite_iv (s : State) (a : Nat) (vs : List Byte) : (memWrite s a vs).iv = s.iv := by
  rw [memWrite_frame]

@[simp] theorem memWrite_din (s : State) (a : Nat) (vs : List Byte) : (memWrite s a vs).din = s.din := by
  rw [memWrite_frame]

@[simp] theorem memWrite_dout (s : State) (a : Nat) (vs : List Byte) : (memWrite s a vs).dout = s.dout := by
  rw [memWrite_frame]

@[simp] theorem memWrite_cfg (s : State) (a : Nat) (vs : List Byte) : (memWrite s a vs).cfg = s.cfg := by
  rw [memWrite_frame]

@[simp] theorem memWrite_epoch (s : State) (a : Nat) (vs : List Byte) : (memWrite s a vs).epoch = s.epoch := by
  rw [memWrite_frame]

@[simp] theorem memWrite_draws (s : State) (a : Nat) (vs : List Byte) : (memWrite s a vs).draws = s.draws := by
  rw [memWrite_frame]

@[simp] theorem memWrite_resp (s : State) (a : Nat) (vs : List Byte) : (memWrite s a vs).resp = s.resp := by
  rw [memWrite_frame]

@[simp] theorem memWrite_faults (s : State) (a : Nat) (vs : List Byte) : (memWrite s a vs).faults = s.faults := by
  rw [memWrite_frame]

@[simp] theorem memWrite_inputs (s : State) (a : Nat) (vs : List Byte) : (memWrite s a vs).inputs = s.inputs := by
  rw [memWrite_frame]

/-! ### A block write, field by field -/

@[simp] theorem memWriteBlock_ie (s : State) (a : Nat) (b : Block) : (memWriteBlock s a b).ie = s.ie :=
  memWrite_ie s a (blockBytes b)

@[simp] theorem memWriteBlock_seq (s : State) (a : Nat) (b : Block) : (memWriteBlock s a b).seq = s.seq :=
  memWrite_seq s a (blockBytes b)

@[simp] theorem memWriteBlock_done (s : State) (a : Nat) (b : Block) : (memWriteBlock s a b).done = s.done :=
  memWrite_done s a (blockBytes b)

@[simp] theorem memWriteBlock_ovr (s : State) (a : Nat) (b : Block) : (memWriteBlock s a b).ovr = s.ovr :=
  memWrite_ovr s a (blockBytes b)

@[simp] theorem memWriteBlock_err (s : State) (a : Nat) (b : Block) : (memWriteBlock s a b).err = s.err :=
  memWrite_err s a (blockBytes b)

@[simp] theorem memWriteBlock_ctxValid (s : State) (a : Nat) (b : Block) : (memWriteBlock s a b).ctxValid = s.ctxValid :=
  memWrite_ctxValid s a (blockBytes b)

@[simp] theorem memWriteBlock_ctxDir (s : State) (a : Nat) (b : Block) : (memWriteBlock s a b).ctxDir = s.ctxDir :=
  memWrite_ctxDir s a (blockBytes b)

@[simp] theorem memWriteBlock_nr (s : State) (a : Nat) (b : Block) : (memWriteBlock s a b).nr = s.nr :=
  memWrite_nr s a (blockBytes b)

@[simp] theorem memWriteBlock_rk (s : State) (a : Nat) (b : Block) : (memWriteBlock s a b).rk = s.rk :=
  memWrite_rk s a (blockBytes b)

@[simp] theorem memWriteBlock_len (s : State) (a : Nat) (b : Block) : (memWriteBlock s a b).len = s.len :=
  memWrite_len s a (blockBytes b)

@[simp] theorem memWriteBlock_src (s : State) (a : Nat) (b : Block) : (memWriteBlock s a b).src = s.src :=
  memWrite_src s a (blockBytes b)

@[simp] theorem memWriteBlock_dst (s : State) (a : Nat) (b : Block) : (memWriteBlock s a b).dst = s.dst :=
  memWrite_dst s a (blockBytes b)

@[simp] theorem memWriteBlock_offset (s : State) (a : Nat) (b : Block) : (memWriteBlock s a b).offset = s.offset :=
  memWrite_offset s a (blockBytes b)

@[simp] theorem memWriteBlock_stPass (s : State) (a : Nat) (b : Block) : (memWriteBlock s a b).stPass = s.stPass :=
  memWrite_stPass s a (blockBytes b)

@[simp] theorem memWriteBlock_stRan (s : State) (a : Nat) (b : Block) : (memWriteBlock s a b).stRan = s.stRan :=
  memWrite_stRan s a (blockBytes b)

@[simp] theorem memWriteBlock_key (s : State) (a : Nat) (b : Block) : (memWriteBlock s a b).key = s.key :=
  memWrite_key s a (blockBytes b)

@[simp] theorem memWriteBlock_iv (s : State) (a : Nat) (b : Block) : (memWriteBlock s a b).iv = s.iv :=
  memWrite_iv s a (blockBytes b)

@[simp] theorem memWriteBlock_din (s : State) (a : Nat) (b : Block) : (memWriteBlock s a b).din = s.din :=
  memWrite_din s a (blockBytes b)

@[simp] theorem memWriteBlock_dout (s : State) (a : Nat) (b : Block) : (memWriteBlock s a b).dout = s.dout :=
  memWrite_dout s a (blockBytes b)

@[simp] theorem memWriteBlock_cfg (s : State) (a : Nat) (b : Block) : (memWriteBlock s a b).cfg = s.cfg :=
  memWrite_cfg s a (blockBytes b)

@[simp] theorem memWriteBlock_epoch (s : State) (a : Nat) (b : Block) : (memWriteBlock s a b).epoch = s.epoch :=
  memWrite_epoch s a (blockBytes b)

@[simp] theorem memWriteBlock_draws (s : State) (a : Nat) (b : Block) : (memWriteBlock s a b).draws = s.draws :=
  memWrite_draws s a (blockBytes b)

@[simp] theorem memWriteBlock_resp (s : State) (a : Nat) (b : Block) : (memWriteBlock s a b).resp = s.resp :=
  memWrite_resp s a (blockBytes b)

@[simp] theorem memWriteBlock_faults (s : State) (a : Nat) (b : Block) : (memWriteBlock s a b).faults = s.faults :=
  memWrite_faults s a (blockBytes b)

@[simp] theorem memWriteBlock_inputs (s : State) (a : Nat) (b : Block) : (memWriteBlock s a b).inputs = s.inputs :=
  memWrite_inputs s a (blockBytes b)

theorem dbufByte_memWrite (s : State) (a : Nat) (vs : List Byte) (b : Nat) :
    dbufByte (memWrite s a vs) b =
      if a ≤ b ∧ b < a + vs.length then vs.getD (b - a) 0 else dbufByte s b := by
  induction vs generalizing s a with
  | nil =>
    rw [if_neg (by simp)]
    rfl
  | cons v vs ih =>
    simp only [memWrite, ih, dbufByte_setDbufByte, List.length_cons]
    by_cases hb : b = a
    · subst hb
      rw [if_neg (by omega), if_pos rfl, if_pos (by omega)]
      simp
    · rw [if_neg hb]
      by_cases hr : a + 1 ≤ b ∧ b < a + 1 + vs.length
      · rw [if_pos hr, if_pos (by omega), show b - a = (b - (a + 1)) + 1 by omega]
        simp
      · rw [if_neg hr, if_neg (by omega)]

/-- A wide write inside the buffer keeps the canonical form. -/
theorem memWrite_wf {size : Nat} {s : State} {a : Nat} {vs : List Byte} (ha : a + vs.length ≤ size)
    (hm : Memory.wf size s.dbuf = true) : Memory.wf size (memWrite s a vs).dbuf = true := by
  induction vs generalizing s a with
  | nil => exact hm
  | cons v vs ih =>
    simp only [List.length_cons] at ha
    exact ih (by omega) (Memory.wf_set (by omega) hm)

theorem blockBytes_length (b : Block) : (blockBytes b).length = 16 := rfl

theorem blockBytes_getD (b : Block) (i : Nat) (hi : i < 16) : (blockBytes b).getD i 0 = blockByte b i := by
  interval_cases i <;> rfl

theorem blockByte_blockOfBytes (f : Nat → Byte) (i : Nat) (hi : i < 16) : blockByte (blockOfBytes f) i = f i := by
  interval_cases i <;> rfl

theorem blockOfBytes_blockByte (b : Block) : blockOfBytes (blockByte b) = b := rfl

/-- Two blocks with equal bytes are equal. -/
theorem block_ext {a b : Block} (h : ∀ i, i < 16 → blockByte a i = blockByte b i) : a = b := by
  rw [← blockOfBytes_blockByte a, ← blockOfBytes_blockByte b]
  simp only [blockOfBytes]
  rw [h 0, h 1, h 2, h 3, h 4, h 5, h 6, h 7, h 8, h 9, h 10, h 11, h 12, h 13, h 14, h 15] <;> omega

theorem blockByte_setBlockByte (b : Block) (i : Nat) (v : Byte) (j : Nat) (hi : i < 16) (hj : j < 16) :
    blockByte (setBlockByte b i v) j = if j = i then v else blockByte b j := by
  interval_cases i <;> interval_cases j <;> rfl

theorem dbufByte_memWriteBlock (s : State) (a : Nat) (v : Block) (b : Nat) :
    dbufByte (memWriteBlock s a v) b = if a ≤ b ∧ b < a + 16 then blockByte v (b - a) else dbufByte s b := by
  rw [memWriteBlock, dbufByte_memWrite]
  have hl : (blockBytes v).length = 16 := blockBytes_length v
  by_cases h : a ≤ b ∧ b < a + 16
  · rw [if_pos (by omega), if_pos h]
    exact blockBytes_getD v (b - a) (by omega)
  · rw [if_neg (by omega), if_neg h]

theorem memWriteBlock_frame (s : State) (a : Nat) (v : Block) :
    memWriteBlock s a v = { s with dbuf := (memWriteBlock s a v).dbuf } :=
  memWrite_frame s a (blockBytes v)

theorem blockByte_memReadBlock (s : State) (a i : Nat) (hi : i < 16) :
    blockByte (memReadBlock s a) i = dbufByte s (a + i) :=
  blockByte_blockOfBytes _ i hi

/-- A block read depends on the sixteen bytes it reads. -/
theorem memReadBlock_congr {s t : State} {a : Nat} (h : ∀ i, i < 16 → dbufByte t (a + i) = dbufByte s (a + i)) :
    memReadBlock t a = memReadBlock s a :=
  block_ext fun i hi => by rw [blockByte_memReadBlock _ _ _ hi, blockByte_memReadBlock _ _ _ hi, h i hi]

theorem memRead_length (s : State) (a n : Nat) : (memRead s a n).length = n := by
  induction n generalizing a with
  | zero => rfl
  | succ n ih => simp [memRead, ih]

theorem memRead_getD (s : State) (a n i : Nat) (hi : i < n) : (memRead s a n).getD i 0 = dbufByte s (a + i) := by
  induction n generalizing a i with
  | zero => omega
  | succ n ih =>
    cases i with
    | zero => simp [memRead]
    | succ i =>
      simp only [memRead, List.getD_cons_succ]
      rw [ih (a + 1) i (by omega)]
      congr 1
      omega

end Sys2Proof.Machine
end

