-- ==== Sys2Proof/Laws/Ops.lean ====
section
/-!
SUPPORT. What each shared operation can do, said once: completion, `raise` and the checks, the loops of the modes,
the context slots, and the frame of each mode's loop.
-/

namespace Sys2Proof.Machine

/-! ### Completion -/

/-- A checked command either raises its first failing check or takes effect. -/
theorem runChecked_cases {check : Option ErrCode} {body : State → State} {s t : State}
    (h : runChecked check body s = .next t) :
    (∃ code, check = some code ∧ t = finish code { s with faults := faultsOf code ++ s.faults }) ∨
      (check = none ∧ t = finish .ok (body s)) := by
  cases check with
  | some code => exact .inl ⟨code, rfl, by simpa [runChecked, raise, complete] using h.symm⟩
  | none => exact .inr ⟨rfl, by simpa [runChecked, succeed, complete, faultsOf] using h.symm⟩

theorem runChecked_none (body : State → State) (s : State) :
    runChecked none body s = .next (finish .ok (body s)) := rfl

theorem runChecked_some (code : ErrCode) (body : State → State) (s : State) :
    runChecked (some code) body s = .next (finish code { s with faults := faultsOf code ++ s.faults }) := rfl

/-! ### The checks -/

theorem contextOk_iff (d : Dir) (s : State) : contextOk d s = true ↔ s.ctxValid = true ∧ s.ctxDir = d := by
  simp [contextOk]

theorem rangeOk_iff (s : State) :
    rangeOk s = true ↔
      s.src.toNat + s.len.toNat ≤ s.cfg.dbufSize ∧ s.dst.toNat + s.len.toNat ≤ s.cfg.dbufSize := by
  simp [rangeOk]

theorem ecbChecks_none {d : Dir} {s : State} : ecbChecks d s = none ↔ s.ctxValid = true ∧ s.ctxDir = d := by
  simp only [ecbChecks, ← contextOk_iff]
  cases contextOk d s <;> simp

theorem cbcChecks_none {d : Dir} {s : State} :
    cbcChecks d s = none ↔ (s.ctxValid = true ∧ s.ctxDir = d) ∧ s.len.toNat % 16 = 0 ∧
      s.src.toNat + s.len.toNat ≤ s.cfg.dbufSize ∧ s.dst.toNat + s.len.toNat ≤ s.cfg.dbufSize := by
  rw [← rangeOk_iff, ← contextOk_iff]
  simp only [cbcChecks, lengthOk]
  cases contextOk d s <;> cases rangeOk s <;> by_cases h : s.len.toNat % 16 = 0 <;> simp [h]

theorem cfbChecks_none {s : State} :
    cfbChecks s = none ↔ (s.ctxValid = true ∧ s.ctxDir = .enc) ∧
      s.src.toNat + s.len.toNat ≤ s.cfg.dbufSize ∧ s.dst.toNat + s.len.toNat ≤ s.cfg.dbufSize := by
  rw [← rangeOk_iff, ← contextOk_iff]
  simp only [cfbChecks]
  cases contextOk .enc s <;> cases rangeOk s <;> simp

/-! ### Loops -/

/-- What every pass keeps, the loop keeps. -/
theorem forUpTo_invariant {body : Nat → State → State} {P : State → Prop} {n : Nat} {s : State} (hs : P s)
    (hb : ∀ j t, j < n → P t → P (body j t)) : P (forUpTo body n s) := by
  induction n with
  | zero => exact hs
  | succ n ih => exact hb n _ (by omega) (ih fun j t hj => hb j t (by omega))

/-- A loop of m + n passes is m passes and then n passes numbered from m. -/
theorem forUpTo_add (body : Nat → State → State) (m n : Nat) (s : State) :
    forUpTo body (m + n) s = forUpTo (fun j => body (m + j)) n (forUpTo body m s) := by
  induction n with
  | zero => rfl
  | succ n ih =>
    show body (m + n) (forUpTo body (m + n) s) = _
    rw [ih]
    rfl

/-! ### The frame of the mode loops -/

/-- All that a pass of a mode's loop may change: `DBUF`, `IV` and `OFFSET`. -/
def StreamFrame (s t : State) : Prop := t = { s with dbuf := t.dbuf, iv := t.iv, offset := t.offset }

theorem StreamFrame.refl (s : State) : StreamFrame s s := rfl

theorem StreamFrame.trans {s t u : State} (h : StreamFrame s t) (h' : StreamFrame t u) : StreamFrame s u := by
  unfold StreamFrame at *
  rw [h', h]

theorem cbcEncUnit_frame (j : Nat) (s : State) : StreamFrame s (cbcEncUnit j s) := by
  apply State.ext <;> simp [cbcEncUnit]

theorem cbcDecUnit_frame (j : Nat) (s : State) : StreamFrame s (cbcDecUnit j s) := by
  apply State.ext <;> simp [cbcDecUnit]

theorem refreshKeystream_frame (s : State) :
    refreshKeystream s = setIv (refreshKeystream s).iv s := by
  unfold refreshKeystream
  split <;> rfl

theorem cfbEncByte_frame (i : Nat) (s : State) : StreamFrame s (cfbEncByte i s) := by
  unfold cfbEncByte
  rw [refreshKeystream_frame]
  rfl

theorem cfbDecByte_frame (i : Nat) (s : State) : StreamFrame s (cfbDecByte i s) := by
  unfold cfbDecByte
  rw [refreshKeystream_frame]
  rfl

theorem forUpTo_frame {body : Nat → State → State} (hb : ∀ j s, StreamFrame s (body j s)) (n : Nat) (s : State) :
    StreamFrame s (forUpTo body n s) :=
  forUpTo_invariant (StreamFrame.refl s) fun j t _ ht => ht.trans (hb j t)

/-! ### The context slots -/

theorem storeKeys_getElem (rk : Vector Block 15) (r : Nat) (keys : List Block) (i : Nat) (hi : i < 15) :
    (storeKeys rk r keys)[i] = if r ≤ i ∧ i < r + keys.length then keys.getD (i - r) Block.zero else rk[i] := by
  induction keys generalizing rk r with
  | nil =>
    rw [if_neg (by simp)]
    rfl
  | cons k ks ih =>
    simp only [storeKeys, ih, List.length_cons]
    by_cases hr : i = r
    · subst hr
      rw [if_neg (by omega), if_pos (by omega)]
      simp
    · by_cases h : r + 1 ≤ i ∧ i < r + 1 + ks.length
      · rw [if_pos h, if_pos (by omega), show i - r = (i - (r + 1)) + 1 by omega]
        simp
      · rw [if_neg h, if_neg (by omega)]
        exact Vector.getElem_setIfInBounds_ne hi (by omega)

/-! ### The key expansion -/

theorem expandWords_length (T : Tables) (nk n i : Nat) (rev : List Column) :
    (expandWords T nk n i rev).length = rev.length + n := by
  induction n generalizing i rev with
  | zero => simp [expandWords]
  | succ n ih =>
    rw [expandWords, ih, List.length_cons]
    omega

theorem groupWords_length (k : Nat) (ws : List Column) (h : ws.length = 4 * k) : (groupWords ws).length = k := by
  induction k generalizing ws with
  | zero =>
    have : ws = [] := by simpa using h
    subst this
    rfl
  | succ k ih =>
    match ws, h with
    | a :: b :: c :: d :: rest, h =>
      simp only [groupWords, List.length_cons]
      rw [ih rest (by simp only [List.length_cons] at h; omega)]

theorem keylenOk_iff (keylen : Nat) : keylenOk keylen = true ↔ keylen = 16 ∨ keylen = 24 ∨ keylen = 32 := by
  simp [keylenOk, or_assoc]

end Sys2Proof.Machine
end

