-- ==== Sys2Proof/Laws/Bus.lean ====
section
/-!
SUPPORT. The laws of the host bus: which accesses are legal, the byte lanes of a word, and all that an access may
change.
-/

namespace Sys2Proof.Machine

theorem regLegal_iff (offset size : Nat) :
    regLegal offset size = true ↔ offset < 0x1000 ∧ size = 4 ∧ offset % 4 = 0 := by
  simp [regLegal, inRegSpace, and_assoc]

theorem dbufLegal_iff (c : Config) (offset size : Nat) :
    dbufLegal c offset size = true ↔
      0x1000 ≤ offset ∧ offset ≤ 0x1FFF ∧ (size = 1 ∨ size = 2 ∨ size = 4) ∧ (offset - 0x1000) % size = 0 ∧
        offset - 0x1000 + size ≤ c.dbufSize := by
  simp [dbufLegal, and_assoc, or_assoc]

/-- A `DBUF` access is no register access. -/
theorem regLegal_of_dbufLegal {c : Config} {offset size : Nat} (h : dbufLegal c offset size = true) :
    regLegal offset size = false := by
  have h' := (dbufLegal_iff c offset size).mp h
  cases hr : regLegal offset size with
  | false => rfl
  | true =>
    have := (regLegal_iff offset size).mp hr
    omega

theorem busy_iff (s : State) : busy s = true ↔ ∃ w, s.seq = .busy w := by
  unfold busy
  cases s.seq <;> simp

@[simp] theorem busy_of_idle {s : State} (h : s.seq = .idle) : busy s = false := by simp [busy, h]

@[simp] theorem busy_of_busy {s : State} {w : Word} (h : s.seq = .busy w) : busy s = true := by simp [busy, h]

/-! ### The register map -/

/-- Above `ID` all offsets are reserved (10_state.md R39). -/
theorem regAt_reserved {offset : Nat} (h : 0x074 ≤ offset) : regAt offset = .reserved := by
  unfold regAt
  split <;> first | omega | rfl

/-- `CMD`, the key words and the reserved offsets are the registers that read as zero by rule. -/
theorem regAt_zero {offset : Nat} (ho : offset = 0x004 ∨ (0x020 ≤ offset ∧ offset ≤ 0x03C) ∨ 0x074 ≤ offset) :
    regAt offset = .cmd ∨ (∃ k, regAt offset = .key k) ∨ regAt offset = .reserved := by
  unfold regAt
  split <;> first | omega | exact .inl rfl | exact .inr (.inl ⟨_, rfl⟩) | exact .inr (.inr rfl)

/-- The registers that take no write: `ST_RESULT`, `DOUT`, `ID` and the reserved offsets. -/
theorem regAt_readOnly {offset : Nat} (ho : offset = 0x01C ∨ 0x060 ≤ offset) :
    regAt offset = .stResult ∨ (∃ k, regAt offset = .dout k) ∨ regAt offset = .id ∨ regAt offset = .reserved := by
  rcases ho with rfl | ho
  · exact .inl rfl
  · by_cases h : offset < 0x074
    · interval_cases offset <;> first | exact .inr (.inl ⟨_, rfl⟩) | exact .inr (.inr (.inl rfl)) |
        exact .inr (.inr (.inr rfl))
    · exact .inr (.inr (.inr (regAt_reserved (by omega))))

theorem regAt_cmd {offset : Nat} (h : regAt offset = .cmd) : offset = 0x004 := by
  unfold regAt at h
  split at h <;> first | rfl | cases h

theorem regAt_status {offset : Nat} (h : regAt offset = .status) : offset = 0x008 := by
  unfold regAt at h
  split at h <;> first | rfl | cases h

/-! ### Byte lanes -/

/-- The lanes of a word put together from at most four bytes are those bytes. -/
theorem lane_lanesWord (vs : List Byte) (hv : vs.length ≤ 4) (j : Nat) (hj : j < 4) :
    lane (lanesWord vs) j = vs.getD j 0 := by
  match vs, hv with
  | [], _ => interval_cases j <;> rfl
  | [a], _ => interval_cases j <;> ext i hi <;> simp [lane, lanesWord] <;> interval_cases i <;> simp
  | [a, b], _ => interval_cases j <;> ext i hi <;> simp [lane, lanesWord] <;> interval_cases i <;> simp
  | [a, b, c], _ => interval_cases j <;> ext i hi <;> simp [lane, lanesWord] <;> interval_cases i <;> simp
  | [a, b, c, d], _ => interval_cases j <;> ext i hi <;> simp [lane, lanesWord] <;> interval_cases i <;> simp

theorem columnByte_wordColumn (w : Word) (j : Nat) (hj : j < 4) : columnByte (wordColumn w) j = lane w j := by
  interval_cases j <;> rfl

theorem lane_columnWord (c : Column) (j : Nat) (hj : j < 4) : lane (columnWord c) j = columnByte c j := by
  rw [columnWord, lane_lanesWord _ (by simp) j hj]
  interval_cases j <;> rfl

/-- `DBUF[b]` after a window write (20_memory.md R66). -/
theorem dbufByte_dbufWrite (s : State) (a size : Nat) (v : Word) (b : Nat) :
    dbufByte (dbufWrite s a size v) b = if a ≤ b ∧ b < a + size then lane v (b - a) else dbufByte s b := by
  rw [dbufWrite, dbufByte_memWrite]
  by_cases h : a ≤ b ∧ b < a + size
  · rw [if_pos (by simpa using h), if_pos h]
    have hb : b - a < size := by omega
    simp [List.getD, hb]
  · rw [if_neg (by simpa using h), if_neg h]

theorem dbufWrite_frame (s : State) (a size : Nat) (v : Word) :
    dbufWrite s a size v = { s with dbuf := (dbufWrite s a size v).dbuf } :=
  memWrite_frame s a _

theorem dbufWrite_wf {size : Nat} {s : State} {a n : Nat} {v : Word} (ha : a + n ≤ size)
    (hm : Memory.wf size s.dbuf = true) : Memory.wf size (dbufWrite s a n v).dbuf = true :=
  memWrite_wf (by simpa using ha) hm

/-! ### All that an access may change -/

/-- A read changes the response, the count of draws and the recorded faults. -/
theorem hostRead_frame (offset size : Nat) (s : State) :
    hostRead offset size s =
      { s with resp := (hostRead offset size s).resp
               draws := (hostRead offset size s).draws
               faults := (hostRead offset size s).faults } := by
  unfold hostRead
  split
  · split <;> rfl
  · split
    · rfl
    · split
      · split <;> rfl
      · rfl

/-- A read is unspecified, defined, or refused (20_memory.md R63 to R67, R71). -/
theorem hostRead_cases (offset size : Nat) (s : State) :
    (regLegal offset size = true ∧ hostRead offset size s =
      if busy s && !readDefinedWhileBusy (regAt offset) then respondOkay (some (freshWord s)) (countDraw s)
      else respondOkay (some (regRead (regAt offset) s)) s) ∨
    (regLegal offset size = false ∧ inRegSpace offset = true ∧ hostRead offset size s =
      respondError (.read offset size) (some 0) s) ∨
    (inRegSpace offset = false ∧ dbufLegal s.cfg offset size = true ∧ hostRead offset size s =
      if busy s then respondOkay (some (freshWord s)) (countDraw s)
      else respondOkay (some (dbufRead s (offset - 0x1000) size)) s) ∨
    (inRegSpace offset = false ∧ dbufLegal s.cfg offset size = false ∧ hostRead offset size s =
      respondError (.read offset size) (some (freshWord s)) (countDraw s)) := by
  unfold hostRead
  cases hr : regLegal offset size <;> cases hs : inRegSpace offset <;> cases hd : dbufLegal s.cfg offset size <;>
    simp_all [regLegal]

/-- A write is refused, dropped, or performed on one register or on `DBUF`. -/
theorem hostWrite_cases (offset size : Nat) (v : Word) (s : State) :
    (regLegal offset size = true ∧ hostWrite offset size v s =
      if busy s && writeDroppedWhileBusy (regAt offset) then dropWrite s
      else respondOkay none (regWrite (regAt offset) v s)) ∨
    (regLegal offset size = false ∧ dbufLegal s.cfg offset size = true ∧ hostWrite offset size v s =
      if busy s then dropWrite s else respondOkay none (dbufWrite s (offset - 0x1000) size v)) ∨
    (regLegal offset size = false ∧ dbufLegal s.cfg offset size = false ∧ hostWrite offset size v s =
      respondError (.write offset size v) none s) := by
  unfold hostWrite
  cases hr : regLegal offset size <;> cases hd : dbufLegal s.cfg offset size <;> simp

end Sys2Proof.Machine
end

