-- ==== Sys2Proof/Laws/Step.lean ====
section
/-!
SUPPORT. What one step can be, said once, and what one command can be.
-/

namespace Sys2Proof.Machine

/-- The four kinds of step. -/
theorem step_cases (s : State) :
    (s.inputs = [] ∧ step s = engineTurn s) ∨
    (∃ rest, s.inputs = .engine :: rest ∧ step s = engineTurn { s with inputs := rest }) ∨
    (∃ a rest, s.inputs = .access a :: rest ∧ step s = .next (hostAccess a { s with inputs := rest })) ∨
    (∃ rest, s.inputs = .reset :: rest ∧ step s = .next (resetInput { s with inputs := rest })) := by
  unfold step
  cases hi : s.inputs with
  | nil => simp
  | cons x rest => cases x <;> simp

/-- The engine's turn: waiting, an illegal word, or a command. -/
theorem engineTurn_cases (s : State) :
    (s.seq = .idle ∧ engineTurn s = .next s) ∨
    (∃ w why, s.seq = .busy w ∧ decode w = .illegal why ∧ engineTurn s = raise .illegalCommand s) ∨
    (∃ w i, s.seq = .busy w ∧ decode w = .command i ∧ engineTurn s = exec i s) := by
  unfold engineTurn fetch
  cases hs : s.seq with
  | idle => simp
  | busy w => cases hd : decode w <;> simp [hd]

theorem step_nil {s : State} (h : s.inputs = []) : step s = engineTurn s := by simp [step, h]

theorem step_engine {s : State} {rest : List Input} (h : s.inputs = .engine :: rest) :
    step s = engineTurn { s with inputs := rest } := by simp [step, h]

theorem step_access {s : State} {a : Access} {rest : List Input} (h : s.inputs = .access a :: rest) :
    step s = .next (hostAccess a { s with inputs := rest }) := by simp [step, h]

theorem step_reset {s : State} {rest : List Input} (h : s.inputs = .reset :: rest) :
    step s = .next (resetInput { s with inputs := rest }) := by simp [step, h]

theorem engineTurn_command {s : State} {w : Word} {i : Instr} (hs : s.seq = .busy w) (hd : decode w = .command i) :
    engineTurn s = exec i s := by simp [engineTurn, fetch, hs, hd]

theorem engineTurn_illegal {s : State} {w : Word} {why : IllegalReason} (hs : s.seq = .busy w)
    (hd : decode w = .illegal why) : engineTurn s = raise .illegalCommand s := by simp [engineTurn, fetch, hs, hd]

/-- What a command leaves: the completion update over the body of its rule, after its checks. -/
def bodyOf (i : Instr) (s : State) : State :=
  match i with
  | .nop => s
  | .setkeyEnc k => if keylenOk k then loadContext .enc (encSchedule s.cfg.tables s.key.toList k) s else dropContext s
  | .setkeyDec k => if keylenOk k then loadContext .dec (decSchedule s.cfg.tables s.key.toList k) s else dropContext s
  | .ecbEnc => if ecbChecks .enc s = none then setDout (encryptBlock s s.din) s else s
  | .ecbDec => if ecbChecks .dec s = none then setDout (decryptBlock s s.din) s else s
  | .cbcEnc => if cbcChecks .enc s = none then forUpTo cbcEncUnit (s.len.toNat / 16) s else s
  | .cbcDec => if cbcChecks .dec s = none then forUpTo cbcDecUnit (s.len.toNat / 16) s else s
  | .cfbEnc => if cfbChecks s = none then forUpTo cfbEncByte s.len.toNat s else s
  | .cfbDec => if cfbChecks s = none then forUpTo cfbDecByte s.len.toNat s else s
  | .selfTest _ => writeStResult (selfTestBits s.cfg.tables) s
  | .clearCtx => clearContext s

/-- The code a command completes with. -/
def codeOf (i : Instr) (s : State) : ErrCode :=
  match i with
  | .nop => .ok
  | .setkeyEnc k => if keylenOk k then .ok else .invalidKeyLength
  | .setkeyDec k => if keylenOk k then .ok else .invalidKeyLength
  | .ecbEnc => (ecbChecks .enc s).getD .ok
  | .ecbDec => (ecbChecks .dec s).getD .ok
  | .cbcEnc => (cbcChecks .enc s).getD .ok
  | .cbcDec => (cbcChecks .dec s).getD .ok
  | .cfbEnc => (cfbChecks s).getD .ok
  | .cfbDec => (cfbChecks s).getD .ok
  | .selfTest _ => if selfTestBits s.cfg.tables = 0xFFF then .ok else .selfTestFailed
  | .clearCtx => .ok

theorem runChecked_eq (check : Option ErrCode) (body : State → State) (s : State) :
    runChecked check body s =
      .next (finish (check.getD .ok)
        { (if check = none then body s else s) with
            faults := faultsOf (check.getD .ok) ++ (if check = none then body s else s).faults }) := by
  cases check <;> rfl

/-- A command is its body and then the completion update with its code, which also records a contract violation. -/
theorem exec_eq (i : Instr) (s : State) :
    exec i s = .next (finish (codeOf i s)
      { bodyOf i s with faults := faultsOf (codeOf i s) ++ (bodyOf i s).faults }) := by
  cases i with
  | setkeyEnc k =>
    simp only [exec, execSetkeyEnc, codeOf, bodyOf, succeed, raise]
    split <;> simp only [complete]
  | setkeyDec k =>
    simp only [exec, execSetkeyDec, codeOf, bodyOf, succeed, raise]
    split <;> simp only [complete]
  | selfTest v => simp only [exec, execSelfTest, codeOf, bodyOf, complete]
  | nop => rfl
  | clearCtx => rfl
  | ecbEnc => simp only [exec, execEcbEnc, runChecked_eq, codeOf, bodyOf]
  | ecbDec => simp only [exec, execEcbDec, runChecked_eq, codeOf, bodyOf]
  | cbcEnc => simp only [exec, execCbcEnc, runChecked_eq, codeOf, bodyOf]
  | cbcDec => simp only [exec, execCbcDec, runChecked_eq, codeOf, bodyOf]
  | cfbEnc => simp only [exec, execCfbEnc, runChecked_eq, codeOf, bodyOf]
  | cfbDec => simp only [exec, execCfbDec, runChecked_eq, codeOf, bodyOf]

/-- Two equal next states. -/
theorem next_inj {s t : State} (h : (Host.Outcome.next s : Host.Outcome State Fault Refusal) = .next t) : s = t := by
  injection h

/-- All that the body of a mode command may change. -/
theorem bodyOf_stream {i : Instr} (s : State) (h : i = .cbcEnc ∨ i = .cbcDec ∨ i = .cfbEnc ∨ i = .cfbDec) :
    StreamFrame s (bodyOf i s) := by
  rcases h with rfl | rfl | rfl | rfl <;> simp only [bodyOf] <;> split
  all_goals first | exact StreamFrame.refl s | skip
  · exact forUpTo_frame cbcEncUnit_frame _ _
  · exact forUpTo_frame cbcDecUnit_frame _ _
  · exact forUpTo_frame cfbEncByte_frame _ _
  · exact forUpTo_frame cfbDecByte_frame _ _

/-- What taking the next input, an illegal word, a command, an access and a reset keep, a step keeps. -/
theorem step_invariant {P : State → Prop} (hinput : ∀ s rest, P s → P { s with inputs := rest })
    (hillegal : ∀ s, P s → P (finish .illegalCommand s)) (hexec : ∀ i s t, P s → exec i s = .next t → P t)
    (haccess : ∀ a s, P s → P (hostAccess a s)) (hreset : ∀ s, P s → P (resetInput s)) {s t : State} (hs : P s)
    (h : step s = .next t) : P t := by
  have engine : ∀ u, P u → engineTurn u = .next t → P t := by
    intro u hu h
    rcases engineTurn_cases u with ⟨-, e⟩ | ⟨_, _, -, -, e⟩ | ⟨_, _, -, -, e⟩ <;> rw [e] at h
    · exact next_inj h ▸ hu
    · exact next_inj h ▸ hillegal u hu
    · exact hexec _ _ _ hu h
  rcases step_cases s with ⟨-, e⟩ | ⟨rest, -, e⟩ | ⟨a, rest, -, e⟩ | ⟨rest, -, e⟩ <;> rw [e] at h
  · exact engine _ hs h
  · exact engine _ (hinput _ rest hs) h
  · exact next_inj h ▸ haccess _ _ (hinput _ rest hs)
  · exact next_inj h ▸ hreset _ (hinput _ rest hs)

end Sys2Proof.Machine
end

