-- ==== Sys2Proof/Laws/HostProgram.lean ====
section
/-!
SUPPORT. What a command and the host's side of the state have to do with each other, and that the accesses of `WAITIDLE`
are the loop of 30_encoding.md R101.
-/

namespace Sys2Proof.Machine

/-! ### The fields no command reads and only the completion update writes -/

/-- `DONE`, `OVR`, the response and the inputs replaced. -/
def hostSide (d o : Bool) (r : Option Response) (rest : List Input) (s : State) : State :=
  { s with done := d, ovr := o, resp := r, inputs := rest }

/-- What every pass commutes with, the loop commutes with. -/
theorem forUpTo_comm {body : Nat → State → State} {f : State → State} (h : ∀ j s, body j (f s) = f (body j s))
    (n : Nat) (s : State) : forUpTo body n (f s) = f (forUpTo body n s) := by
  induction n with
  | zero => rfl
  | succ n ih => simp only [forUpTo, ih, h]

theorem memWrite_hostSide (d o : Bool) (r : Option Response) (rest : List Input) (s : State) (a : Nat)
    (vs : List Byte) : memWrite (hostSide d o r rest s) a vs = hostSide d o r rest (memWrite s a vs) := by
  induction vs generalizing s a with
  | nil => rfl
  | cons v vs ih => exact ih (setDbufByte s a v) (a + 1)

theorem cbcEncUnit_hostSide (d o : Bool) (r : Option Response) (rest : List Input) (j : Nat) (s : State) :
    cbcEncUnit j (hostSide d o r rest s) = hostSide d o r rest (cbcEncUnit j s) := by
  simp only [cbcEncUnit, memWriteBlock, memWrite_hostSide]
  rfl

theorem cbcDecUnit_hostSide (d o : Bool) (r : Option Response) (rest : List Input) (j : Nat) (s : State) :
    cbcDecUnit j (hostSide d o r rest s) = hostSide d o r rest (cbcDecUnit j s) := by
  simp only [cbcDecUnit, memWriteBlock, memWrite_hostSide]
  rfl

theorem refreshKeystream_hostSide (d o : Bool) (r : Option Response) (rest : List Input) (s : State) :
    refreshKeystream (hostSide d o r rest s) = hostSide d o r rest (refreshKeystream s) := by
  have h : (hostSide d o r rest s).offset = s.offset := rfl
  simp only [refreshKeystream, h]
  split <;> rfl

theorem cfbEncByte_hostSide (d o : Bool) (r : Option Response) (rest : List Input) (i : Nat) (s : State) :
    cfbEncByte i (hostSide d o r rest s) = hostSide d o r rest (cfbEncByte i s) := by
  simp only [cfbEncByte, refreshKeystream_hostSide]
  rfl

theorem cfbDecByte_hostSide (d o : Bool) (r : Option Response) (rest : List Input) (i : Nat) (s : State) :
    cfbDecByte i (hostSide d o r rest s) = hostSide d o r rest (cfbDecByte i s) := by
  simp only [cfbDecByte, refreshKeystream_hostSide]
  rfl

/-- A command's code does not depend on the host's side. -/
theorem codeOf_hostSide (i : Instr) (d o : Bool) (r : Option Response) (rest : List Input) (s : State) :
    codeOf i (hostSide d o r rest s) = codeOf i s := by
  cases i <;> rfl

/-- A command's body neither reads nor writes the host's side. -/
theorem bodyOf_hostSide (i : Instr) (d o : Bool) (r : Option Response) (rest : List Input) (s : State) :
    bodyOf i (hostSide d o r rest s) = hostSide d o r rest (bodyOf i s) := by
  have hecb : ∀ dir, ecbChecks dir (hostSide d o r rest s) = ecbChecks dir s := fun _ => rfl
  have hcbc : ∀ dir, cbcChecks dir (hostSide d o r rest s) = cbcChecks dir s := fun _ => rfl
  have hcfb : cfbChecks (hostSide d o r rest s) = cfbChecks s := rfl
  cases i with
  | nop => rfl
  | clearCtx => rfl
  | selfTest v => rfl
  | setkeyEnc k => simp only [bodyOf]; split <;> rfl
  | setkeyDec k => simp only [bodyOf]; split <;> rfl
  | ecbEnc => simp only [bodyOf, hecb]; split <;> simp only [hostSide, setDout, encryptBlock]
  | ecbDec => simp only [bodyOf, hecb]; split <;> simp only [hostSide, setDout, decryptBlock]
  | cbcEnc => simp only [bodyOf, hcbc]; split; exacts [forUpTo_comm (cbcEncUnit_hostSide d o r rest) _ s, rfl]
  | cbcDec => simp only [bodyOf, hcbc]; split; exacts [forUpTo_comm (cbcDecUnit_hostSide d o r rest) _ s, rfl]
  | cfbEnc => simp only [bodyOf, hcfb]; split; exacts [forUpTo_comm (cfbEncByte_hostSide d o r rest) _ s, rfl]
  | cfbDec => simp only [bodyOf, hcfb]; split; exacts [forUpTo_comm (cfbDecByte_hostSide d o r rest) _ s, rfl]

/-- The engine's turn with a command in flight: the block idle and `DONE` set, the rest of the host's side kept, and the
same effect whatever the host's side holds. -/
theorem engineTurn_busy {s : State} {w : Word} (hs : s.seq = .busy w) :
    ∃ u, u.seq = .idle ∧ u.done = true ∧ ∀ d o r rest,
      engineTurn (hostSide d o r rest s) = .next (hostSide true o r rest u) := by
  cases hd : decode w with
  | illegal why =>
    refine ⟨finish .illegalCommand s, rfl, rfl, fun d o r rest => ?_⟩
    rw [engineTurn_illegal (s := hostSide d o r rest s) hs hd]
    rfl
  | command i =>
    refine ⟨finish (codeOf i s) { bodyOf i s with faults := faultsOf (codeOf i s) ++ (bodyOf i s).faults }, rfl, rfl,
      fun d o r rest => ?_⟩
    rw [engineTurn_command (s := hostSide d o r rest s) hs hd, exec_eq, codeOf_hostSide, bodyOf_hostSide]
    simp only [finish, hostSide]

/-! ### WAITIDLE -/

theorem statusWord_busy {s : State} {w : Word} (h : s.seq = .busy w) : (statusWord s).getLsbD 0 = true := by
  simp [statusWord, bitAt, busy, h]

theorem statusWord_idle {s : State} (h : s.seq = .idle) : (statusWord s).getLsbD 0 = false := by
  simp [statusWord, bitAt, busy, h]

/-- A read of `STATUS`, idle or busy. -/
theorem step_readStatus {s : State} {rest : List Input} (h : s.inputs = r32 0x008 :: rest) :
    step s = .next { s with inputs := rest, resp := some ⟨.okay, some (statusWord s)⟩ } := by
  rw [step_access h]
  simp [hostAccess, hostRead, regLegal, inRegSpace, regAt, readDefinedWhileBusy, regRead, respondOkay, statusWord, busy]

theorem readValues_readStatus {s : State} {rest : List Input} (h : s.inputs = r32 0x008 :: rest) (n : Nat) :
    readValues (n + 1) s =
      statusWord s :: readValues n { s with inputs := rest, resp := some ⟨.okay, some (statusWord s)⟩ } := by
  rw [readValues, step_readStatus h]
  simp only [h, r32]

/-- The accesses of `waitIdle` are a run of the loop `WAITIDLE` (30_encoding.md R101), however often it polls. -/
theorem waitIdle_ends (polls : Nat) (s : State) (w : Word) (rest : List Input) (hs : s.seq = .busy w)
    (hi : s.inputs = waitIdle polls ++ rest) : waitIdleEnds (readValues (polls + 2) s) = true := by
  induction polls generalizing s with
  | zero =>
    have hi : s.inputs = .engine :: r32 0x008 :: rest := hi
    obtain ⟨u, hu, -, hturn⟩ := engineTurn_busy hs
    have hstep : step s = .next (hostSide true s.ovr s.resp (r32 0x008 :: rest) u) := by
      rw [step_engine hi]
      exact hturn s.done s.ovr s.resp (r32 0x008 :: rest)
    rw [readValues, hstep]
    simp only [hi]
    rw [readValues_readStatus rfl]
    have hidle : (hostSide true s.ovr s.resp (r32 0x008 :: rest) u).seq = .idle := hu
    simp only [waitIdleEnds, statusWord_idle hidle, readValues, Bool.false_eq_true, if_false, List.isEmpty_nil]
  | succ polls ih =>
    have hi : s.inputs = r32 0x008 :: (waitIdle polls ++ rest) := by
      rw [hi, waitIdle, waitIdle, List.replicate_succ]
      rfl
    rw [readValues_readStatus hi]
    simp only [waitIdleEnds, statusWord_busy hs, if_true]
    exact ih _ hs rfl

end Sys2Proof.Machine
end

