-- ==== Sys2Proof/Laws/Modes.lean ====
section
/-!
SUPPORT. What one pass of each mode's loop gives: the new `IV`, the new `OFFSET` and every byte of `DBUF` after it, in
terms of the state before.
-/

namespace Sys2Proof.Machine

/-! ### CBC -/

theorem cbcEncUnit_iv (j : Nat) (s : State) :
    (cbcEncUnit j s).iv = encryptBlock s ((memReadBlock s (srcAddr s (16 * j))).xor s.iv) := rfl

theorem cbcEncUnit_dbufByte (j : Nat) (s : State) (a : Nat) :
    dbufByte (cbcEncUnit j s) a =
      if dstAddr s (16 * j) ≤ a ∧ a < dstAddr s (16 * j) + 16 then
        blockByte (cbcEncUnit j s).iv (a - dstAddr s (16 * j))
      else dbufByte s a := by
  rw [← dbufByte_memWriteBlock s, dbufByte_congr (s := memWriteBlock s (dstAddr s (16 * j)) (cbcEncUnit j s).iv)]
  · simp [cbcEncUnit]
  · simp [cbcEncUnit]

theorem cbcDecUnit_iv (j : Nat) (s : State) : (cbcDecUnit j s).iv = memReadBlock s (srcAddr s (16 * j)) := rfl

theorem cbcDecUnit_dbufByte (j : Nat) (s : State) (a : Nat) :
    dbufByte (cbcDecUnit j s) a =
      if dstAddr s (16 * j) ≤ a ∧ a < dstAddr s (16 * j) + 16 then
        blockByte ((decryptBlock s (memReadBlock s (srcAddr s (16 * j)))).xor s.iv) (a - dstAddr s (16 * j))
      else dbufByte s a := by
  rw [← dbufByte_memWriteBlock s, dbufByte_congr (s := memWriteBlock s (dstAddr s (16 * j))
    ((decryptBlock s (memReadBlock s (srcAddr s (16 * j)))).xor s.iv))]
  · simp [cbcDecUnit, cbcDecBlock]
  · simp [cbcDecUnit]

/-! ### CFB128 -/

/-- The block whose byte at the offset is the keystream byte of this pass (44_cfb128.md R197). -/
theorem refreshKeystream_iv (s : State) :
    (refreshKeystream s).iv = if s.offset = 0 then encryptBlock s s.iv else s.iv := by
  unfold refreshKeystream
  split <;> rfl

theorem cfbEncByte_offset (i : Nat) (s : State) : (cfbEncByte i s).offset = s.offset + 1 := by
  unfold cfbEncByte
  rw [refreshKeystream_frame]
  rfl

theorem cfbEncByte_iv (i : Nat) (s : State) :
    (cfbEncByte i s).iv =
      setBlockByte (refreshKeystream s).iv s.offset.toNat
        (dbufByte s (srcAddr s i) ^^^ blockByte (refreshKeystream s).iv s.offset.toNat) := by
  unfold cfbEncByte
  rw [refreshKeystream_frame]
  rfl

theorem cfbEncByte_dbufByte (i : Nat) (s : State) (a : Nat) :
    dbufByte (cfbEncByte i s) a =
      if a = dstAddr s i then dbufByte s (srcAddr s i) ^^^ blockByte (refreshKeystream s).iv s.offset.toNat
      else dbufByte s a := by
  unfold cfbEncByte
  rw [refreshKeystream_frame]
  exact dbufByte_setDbufByte s _ _ a

theorem cfbDecByte_offset (i : Nat) (s : State) : (cfbDecByte i s).offset = s.offset + 1 := by
  unfold cfbDecByte
  rw [refreshKeystream_frame]
  rfl

theorem cfbDecByte_iv (i : Nat) (s : State) :
    (cfbDecByte i s).iv = setBlockByte (refreshKeystream s).iv s.offset.toNat (dbufByte s (srcAddr s i)) := by
  unfold cfbDecByte
  rw [refreshKeystream_frame]
  rfl

theorem cfbDecByte_dbufByte (i : Nat) (s : State) (a : Nat) :
    dbufByte (cfbDecByte i s) a =
      if a = dstAddr s i then dbufByte s (srcAddr s i) ^^^ blockByte (refreshKeystream s).iv s.offset.toNat
      else dbufByte s a := by
  unfold cfbDecByte
  rw [refreshKeystream_frame]
  exact dbufByte_setDbufByte s _ _ a

end Sys2Proof.Machine
end

