-- ==== Sys2Proof/Laws/PerInstr.lean ====
section
/-!
SUPPORT. A family of facts about every command as syntax: the encoder leaves the reserved bits of the command word
clear (30_encoding.md R90).
-/

namespace Sys2Proof.Laws.EncodeReserved

/-- The reserved bits of a well-formed command's word are zero. -/
def Statement (i : Instr) : Prop := i.WellFormed → reservedClear (encode i) = true

theorem keylen_reserved (op : Nat) (hop : op = 1 ∨ op = 2) :
    ∀ k, k < 64 → reservedClear (commandWord op k false) = true := by
  rcases hop with rfl | rfl <;> decide

theorem nop : Statement .nop := fun _ => by decide

theorem setkeyEnc (keylen : Nat) : Statement (.setkeyEnc keylen) := fun h =>
  keylen_reserved 1 (.inl rfl) keylen (by simpa [Instr.WellFormed, Instr.wf, keylenFits] using h)

theorem setkeyDec (keylen : Nat) : Statement (.setkeyDec keylen) := fun h =>
  keylen_reserved 2 (.inr rfl) keylen (by simpa [Instr.WellFormed, Instr.wf, keylenFits] using h)

theorem ecbEnc : Statement .ecbEnc := fun _ => by decide

theorem ecbDec : Statement .ecbDec := fun _ => by decide

theorem cbcEnc : Statement .cbcEnc := fun _ => by decide

theorem cbcDec : Statement .cbcDec := fun _ => by decide

theorem cfbEnc : Statement .cfbEnc := fun _ => by decide

theorem cfbDec : Statement .cfbDec := fun _ => by decide

theorem selfTest (verbose : Bool) : Statement (.selfTest verbose) := fun _ => by
  cases verbose <;> decide

theorem clearCtx : Statement .clearCtx := fun _ => by decide

end Sys2Proof.Laws.EncodeReserved
end

