-- ==== Sys2Proof/Laws/Safety.lean ====
section
/-!
SUPPORT. What the end of a run says, and that only a reset can change the block after it.
-/

namespace Sys2Proof.Safety

open Sys2Proof.Machine

theorem ended_iff (s : State) : ended s = true ↔ (∀ a, Input.access a ∉ s.inputs) ∧ s.seq = .idle := by
  have hbusy : busy s = false ↔ s.seq = .idle := by cases h : s.seq <;> simp [busy, h]
  simp only [ended, Bool.and_eq_true, Bool.not_eq_true', List.any_eq_false, hbusy]
  refine and_congr_left fun _ => ⟨fun h a ha => h _ ha rfl, fun h x hx => ?_⟩
  cases x with
  | access a => exact absurd hx (h a)
  | reset => simp [isAccess]
  | engine => simp [isAccess]

/-- An idle engine's turn changes nothing. -/
theorem engineTurn_idle {s : State} (h : s.seq = .idle) : engineTurn s = .next s := by
  simp only [engineTurn, fetch, h]

/-- After the end a step that is no reset changes the list of inputs only, and the run stays ended. -/
theorem ended_step {s t : State} (hs : ended s = true) (h : step s = .next t) :
    (∃ rest, s.inputs = .reset :: rest) ∨ (t = { s with inputs := t.inputs } ∧ ended t = true) := by
  obtain ⟨hacc, hidle⟩ := (ended_iff s).mp hs
  rcases step_cases s with ⟨-, e⟩ | ⟨rest, hi, e⟩ | ⟨a, rest, hi, -⟩ | ⟨rest, hi, -⟩
  · obtain rfl := next_inj ((e.trans (engineTurn_idle hidle)).symm.trans h)
    exact .inr ⟨rfl, hs⟩
  · obtain rfl := next_inj ((e.trans (engineTurn_idle hidle)).symm.trans h)
    exact .inr ⟨rfl, (ended_iff _).mpr ⟨fun a ha => hacc a (hi ▸ List.mem_cons_of_mem _ ha), hidle⟩⟩
  · exact absurd (hi ▸ List.mem_cons_self) (hacc a)
  · exact .inl ⟨rest, hi⟩

end Sys2Proof.Safety
end

