-- ==== Sys2Proof/Tests/Slice0.lean ====
section
/-!
SUPPORT. The model's own tests: ill-formed terms, command words written out from 30_encoding.md, single steps against
the vectors of 95_test_vectors.md, and for each obligation a state and operands that meet its hypotheses.
-/

namespace Sys2Proof.Tests

open Sys2Proof.Machine Sys2Proof.Claims Sys2Proof.Safety

/-! ### Small states -/

/-- The block after reset with nothing in flight and `program` before it. -/
def idleWith (program : List Input) : State := { State.reset with inputs := program }

/-- The block after reset with `w` in flight and `program` before it. -/
def inFlight (w : Word) (program : List Input) : State := { State.reset with seq := .busy w, inputs := program }

/-- `000102..1f`. -/
def countingKey : Vector Column 8 :=
  #v[hexColumn 0x00010203, hexColumn 0x04050607, hexColumn 0x08090a0b, hexColumn 0x0c0d0e0f,
     hexColumn 0x10111213, hexColumn 0x14151617, hexColumn 0x18191a1b, hexColumn 0x1c1d1e1f]

/-- `2b7e151628aed2a6abf7158809cf4f3c`, and zeros above it. -/
def modeKey : Vector Column 8 :=
  #v[hexColumn 0x2b7e1516, hexColumn 0x28aed2a6, hexColumn 0xabf71588, hexColumn 0x09cf4f3c,
     Column.zero, Column.zero, Column.zero, Column.zero]

/-- After reset, with `K` written to `KEY`. -/
def keyed (K : Vector Column 8) : State := { State.reset with key := K }

/-- After `SETKEY_ENC keylen` under the key `K`: the context loaded and `DONE` set. -/
def encContext (K : Vector Column 8) (keylen : Nat) : State :=
  { loadContext .enc (encSchedule Tables.standard K.toList keylen) (keyed K) with done := true }

/-- After `SETKEY_DEC keylen` under the key `K`. -/
def decContext (K : Vector Column 8) (keylen : Nat) : State :=
  { loadContext .dec (decSchedule Tables.standard K.toList keylen) (keyed K) with done := true }

/-- The IV `000102..0f`. -/
def modeIv : Block := hexBlock 0x000102030405060708090a0b0c0d0e0f

/-- P1 of SP 800-38A. -/
def plain1 : Block := hexBlock 0x6bc1bee22e409f96e93d7e117393172a

/-- P2 of SP 800-38A. -/
def plain2 : Block := hexBlock 0xae2d8a571e03ac9c9eb76fac45af8e51

/-- `s` with `LEN`, `SRC`, `DST` and `IV` written. -/
def operands (s : State) (len src dst : Word) (iv : Block) : State := { s with len := len, src := src, dst := dst, iv := iv }

/-- `f` of the next state holds; false of a fault or a refusal. -/
def after (o : Host.Outcome State Fault Refusal) (f : State → Bool) : Bool :=
  match o with
  | .next t => f t
  | .fault _ => false
  | .refused _ => false

/-! ### Well-formedness -/

theorem test_wf_setkeyEnc_64_refused : ¬ (Instr.setkeyEnc 64).WellFormed := by decide

theorem test_wf_setkeyDec_64_refused : ¬ (Instr.setkeyDec 64).WellFormed := by decide

theorem test_wf_keylen_63 : (Instr.setkeyEnc 63).WellFormed ∧ (Instr.setkeyDec 63).WellFormed := by decide

/-! ### Command words (30_encoding.md R90, R91: OP in [3:0], KEYLEN in [13:8], VERBOSE in [16]) -/

theorem test_decode_nop : decode 0b00000000000000000000000000000000#32 = .command .nop := by decide

theorem test_decode_setkeyEnc : decode 0b00000000000000000001100000000001#32 = .command (.setkeyEnc 24) := by decide

theorem test_decode_setkeyDec : decode 0b00000000000000000010000000000010#32 = .command (.setkeyDec 32) := by decide

theorem test_decode_ecbEnc : decode 0b00000000000000000000000000000011#32 = .command .ecbEnc := by decide

theorem test_decode_ecbDec : decode 0b00000000000000000000000000000100#32 = .command .ecbDec := by decide

theorem test_decode_cbcEnc : decode 0b00000000000000000000000000000101#32 = .command .cbcEnc := by decide

theorem test_decode_cbcDec : decode 0b00000000000000000000000000000110#32 = .command .cbcDec := by decide

theorem test_decode_cfbEnc : decode 0b00000000000000000000000000000111#32 = .command .cfbEnc := by decide

theorem test_decode_cfbDec : decode 0b00000000000000000000000000001000#32 = .command .cfbDec := by decide

theorem test_decode_selfTest : decode 0b00000000000000010000000000001001#32 = .command (.selfTest true) := by decide

theorem test_decode_selfTest_plain : decode 0b00000000000000000000000000001001#32 = .command (.selfTest false) := by
  decide

theorem test_decode_clearCtx : decode 0b00000000000000000000000000001010#32 = .command .clearCtx := by decide

/-- The words of V-CTL-6 and V-CTL-7, with the check each fails first (30_encoding.md R95). -/
theorem test_decode_illegal :
    decode 0x0000000b = .illegal .reservedOpcode ∧ decode 0x0000000f = .illegal .reservedOpcode ∧
    decode 0x00001000 = .illegal .keylenNotAllowed ∧ decode 0x00001009 = .illegal .keylenNotAllowed ∧
    decode 0x00010003 = .illegal .verboseNotAllowed ∧ decode 0x00000010 = .illegal .reservedBits ∧
    decode 0x00004000 = .illegal .reservedBits ∧ decode 0x00020000 = .illegal .reservedBits ∧
    decode 0x80000001 = .illegal .reservedBits := by decide

/-- V-KEY-8: `SETKEY_ENC 16` with `VERBOSE`. -/
theorem test_decode_setkeyEnc_verbose : decode 0x00011001 = .illegal .verboseNotAllowed := by decide

/-- The opcode table's fixed bits, as the host lays them out. -/
theorem test_decodeTableWord : decodeTableWord 32 0x0 = some .nop ∧ decodeTableWord 32 0xa = some .clearCtx := by decide

/-! ### Primitives -/

/-- V-GF-1, V-GF-2, V-SB-1, V-SB-2, V-SR-1, V-SR-2, V-MC-1. -/
theorem test_primitives :
    xtime 0xae = 0x47 ∧ gmul 0x57 0x83 = 0xc1 ∧ gmul 0xff 0xff = 0x13 ∧ ginv 0x53 = 0xca ∧
    sBox Tables.standard 0x53 = 0xed ∧ sInv Tables.standard 0x52 = 0x48 ∧
    shiftRows modeIv = hexBlock 0x00050a0f04090e03080d02070c01060b ∧
    invShiftRows modeIv = hexBlock 0x000d0a0704010e0b0805020f0c090603 ∧
    mixColumn (hexColumn 0xdb135345) = hexColumn 0x8e4da1bc ∧
    invMixColumn (hexColumn 0x8e4da1bc) = hexColumn 0xdb135345 := by decide +kernel

/-! ### Commands -/

/-- V-CTL-1: `NOP` issued after reset. -/
theorem test_nop_status : after (step (State.reset.withFetchWord 32 0)) (fun t => statusWord t == 0x00000002) = true := by
  decide +kernel

/-- V-CTL-2: `NOP` clears `ERR` and keeps an unusable context's `NR` and `CTX_DIR`. -/
theorem test_nop_clears_err :
    let s := { keyed countingKey with err := .invalidKeyLength, nr := 10, ctxDir := .dec, done := true }
    statusWord s = 0x0000a212 ∧ after (exec .nop s) (fun t => statusWord t == 0x0000a202) = true := by decide +kernel

/-- V-KEY-1, with `ek[1]` and `ek[12]` of the 24-byte key. -/
theorem test_setkeyEnc_24 :
    after (exec (.setkeyEnc 24) (keyed countingKey)) (fun t => statusWord t == 0x0000c102 &&
      decide (slot t.rk 1 = hexBlock 0x10111213141516175846f2f95c43f4fe) &&
      decide (slot t.rk 12 = hexBlock 0xa4970a331a78dc09c418c271e3a41d5d)) = true := by decide +kernel

/-- V-KEY-4: `SETKEY_ENC 0` after `SETKEY_DEC 16`. -/
theorem test_setkeyEnc_0 :
    after (exec (.setkeyEnc 0) (decContext countingKey 16)) (fun t => statusWord t == 0x0000a212) = true := by
  decide +kernel

/-- V-KEY-2, with `dk[1]` and `dk[13]` of the 32-byte key. -/
theorem test_setkeyDec_32 :
    after (exec (.setkeyDec 32) (keyed countingKey)) (fun t => statusWord t == 0x0000e302 &&
      decide (slot t.rk 1 = hexBlock 0x34f1d1ffbfceaa2ffce9e25f2558016e) &&
      decide (slot t.rk 13 = hexBlock 0x1a1f181d1e1b1c191217101516131411)) = true := by decide +kernel

/-- V-KEY-3, with `dk[1]` of the 16-byte key. -/
theorem test_setkeyDec_16 :
    after (exec (.setkeyDec 16) (keyed countingKey)) (fun t => statusWord t == 0x0000a302 &&
      decide (slot t.rk 1 = hexBlock 0x13aa29be9c8faff6f770f58000f7bf03)) = true := by decide +kernel

/-- V-KEY-7. -/
theorem test_clearCtx :
    after (exec .clearCtx { encContext countingKey 16 with offset := 5, iv := modeIv }) (fun t =>
      statusWord t == 0x00000002 && decide (t.key = Vector.replicate 8 Column.zero) && decide (t.iv = modeIv) &&
      t.offset == 5) = true := by decide +kernel

/-- V-ECB-2. -/
theorem test_ecbEnc_192 :
    after (exec .ecbEnc { encContext countingKey 24 with din := hexBlock 0x00112233445566778899aabbccddeeff })
      (fun t => statusWord t == 0x0000c102 && decide (t.dout = hexBlock 0xdda97ca4864cdfe06eaf70a0ec0d7191)) = true := by
  decide +kernel

/-- V-ECB-14: the wrong direction. -/
theorem test_ecbEnc_direction :
    after (exec .ecbEnc (decContext countingKey 16)) (fun t => statusWord t == 0x0000a352 &&
      decide (t.dout = Block.zero) && decide (t.faults = [.contractViolation])) = true := by decide +kernel

/-- V-ECB-3. -/
theorem test_ecbDec_256 :
    after (exec .ecbDec { decContext countingKey 32 with din := hexBlock 0x8ea2b7ca516745bfeafc49904b496089 })
      (fun t => statusWord t == 0x0000e302 && decide (t.dout = hexBlock 0x00112233445566778899aabbccddeeff)) = true := by
  decide +kernel

/-- V-ECB-15: no context. -/
theorem test_ecbDec_no_context :
    after (exec .ecbDec State.reset) (fun t => statusWord t == 0x00000052) = true := by decide +kernel

/-- V-CBC-6: overlapping buffers. -/
theorem test_cbcEnc_overlap :
    after (exec .cbcEnc (memWriteBlock (operands (encContext modeKey 16) 32 0 16 modeIv) 0 plain1)) (fun t =>
      decide (memReadBlock t 0 = plain1) && decide (memReadBlock t 16 = hexBlock 0x7649abac8119b246cee98e9b12e9197d) &&
      decide (memReadBlock t 32 = hexBlock 0x7df76b0c1ab899b33e42f047b91b546f) &&
      decide (t.iv = hexBlock 0x7df76b0c1ab899b33e42f047b91b546f)) = true := by decide +kernel

/-- V-CBC-17: the length check comes before the range check. -/
theorem test_cbcEnc_order :
    after (exec .cbcEnc (operands (encContext modeKey 16) 20 4090 0 modeIv)) (fun t =>
      decide (t.err = .invalidInputLength) && decide (t.iv = modeIv) && decide (t.dbuf = [])) = true := by decide +kernel

/-- V-CBC-3: in place. -/
theorem test_cbcDec_in_place :
    let s := operands (decContext modeKey 16) 32 0x100 0x100 modeIv
    let s := memWriteBlock s 0x100 (hexBlock 0x7649abac8119b246cee98e9b12e9197d)
    let s := memWriteBlock s 0x110 (hexBlock 0x5086cb9b507219ee95db113a917678b2)
    after (exec .cbcDec s) (fun t => decide (memReadBlock t 0x100 = plain1) && decide (memReadBlock t 0x110 = plain2) &&
      decide (t.iv = hexBlock 0x5086cb9b507219ee95db113a917678b2)) = true := by decide +kernel

/-- V-CBC-12: the sum does not wrap. -/
theorem test_cbcDec_range :
    after (exec .cbcDec (operands (decContext modeKey 16) 0x20 0xFFFFFFF0 0 modeIv)) (fun t =>
      decide (t.err = .rangeError)) = true := by decide +kernel

/-- V-CFB-6: from offset 15, over a refresh. -/
theorem test_cfbEnc_offset_15 :
    let s := { operands (encContext modeKey 16) 2 0 0x100 modeIv with offset := 15 }
    after (exec .cfbEnc (memWrite s 0 [0x6b, 0xc1])) (fun t =>
      dbufByte t 0x100 == 0x64 && dbufByte t 0x101 == 0x76 && t.offset == 1 &&
      decide (t.iv = hexBlock 0x760e04f1dacbfe721fe546ddb8222fc9)) = true := by decide +kernel

/-- V-CFB-5: an empty command. -/
theorem test_cfbEnc_empty :
    after (exec .cfbEnc (operands (encContext modeKey 16) 0 0 0 modeIv)) (fun t =>
      decide (t.err = .ok) && decide (t.iv = modeIv) && t.offset == 0) = true := by decide +kernel

/-- V-CFB-8: the input byte is fed back. -/
theorem test_cfbDec_three_bytes :
    let s := operands (encContext modeKey 16) 3 0 0x100 modeIv
    after (exec .cfbDec (memWrite s 0 [0x3b, 0x3f, 0xd9])) (fun t =>
      dbufByte t 0x100 == 0x6b && dbufByte t 0x101 == 0xc1 && dbufByte t 0x102 == 0xbe && t.offset == 3 &&
      decide (t.iv = hexBlock 0x3b3fd9cc996d32b6da0937e99bafec60)) = true := by decide +kernel

/-- V-CFB-10: a decryption context is the wrong direction for `CFB_DEC` too. -/
theorem test_cfbDec_direction :
    after (exec .cfbDec (operands (decContext modeKey 16) 3 0 0 modeIv)) (fun t =>
      decide (t.err = .contractViolation) && decide (t.faults = [.contractViolation])) = true := by decide +kernel

/-- Checks 0 and 11 of the self-test's table pass with the spec's tables (45_control.md R219). -/
theorem test_selfTest_checks :
    (selfTestChecks Tables.standard).getD 0 false = true ∧ (selfTestChecks Tables.standard).getD 11 false = true := by
  decide +kernel

/-- A corrupted round constant is found (S5; 45_control.md R221). -/
theorem test_selfTest_corrupted :
    (selfTestChecks { Tables.standard with rcon := Tables.standardRcon.set 0 0x03 }).getD 0 true = false := by
  decide +kernel

/-! ### The bus, the interrupt and reset -/

/-- V-CTL-8: `OFFSET[31:4]` is RAZ/WI. -/
theorem test_offset_write :
    after (step (idleWith [w32 0x018 0x00000013])) (fun t => t.offset == 3) = true := by decide +kernel

/-- V-CTL-11: a halfword in the register space. -/
theorem test_halfword_register :
    after (step (idleWith [w16 0x008 0xFFFF])) (fun t => decide (t.resp = some ⟨.error, none⟩) &&
      statusWord t == 0) = true := by decide +kernel

/-- V-CTL-12: past the end of a 256-byte buffer. -/
theorem test_past_the_end :
    let s := { idleWith [r32 (dbufOffset 256)] with cfg := { dbufSize := 256, tables := Tables.standard } }
    after (step s) (fun t => decide (t.faults = [.busError (.read 0x1100 4)])) = true := by decide +kernel

/-- P6: a busy write is dropped and sets `OVR`. -/
theorem test_busy_write :
    after (step (inFlight 0x1001 [w32 0x050 0x11111111])) (fun t => statusWord t == 0x00000005 &&
      decide (t.din = Block.zero)) = true := by decide +kernel

/-- P1: `DOUT1` in byte lanes. -/
theorem test_dout_lanes :
    after (step { idleWith [r32 0x064] with dout := hexBlock 0x69c4e0d86a7b0430d8cdb78070b4c55a })
      (fun t => decide (t.resp = some ⟨.okay, some 0x30047b6a⟩)) = true := by decide +kernel

/-- V-EXC-2: clearing `DONE` lowers `irq` and keeps `ERR`. -/
theorem test_irq_falls :
    after (step { idleWith [w32 0x008 2] with ie := true, done := true, err := .rangeError })
      (fun t => !irq t && !t.done && decide (t.err = .rangeError)) = true := by decide +kernel

/-- V-RST-2: reset while busy. -/
theorem test_reset_while_busy :
    after (step { inFlight 0x3 [.reset] with iv := modeIv, ie := true }) (fun t => statusWord t == 0 &&
      ctrlWord t == 0 && decide (t.iv = Block.zero) && decide (t.seq = .idle)) = true := by decide +kernel

/-- R283: a run ends with no bus access to come and nothing in flight, a listed reset or not. -/
theorem test_ended :
    ended (idleWith [.reset]) = true ∧ ended (idleWith []) = true ∧ ended (idleWith [.reset, r32 0x008]) = false ∧
    ended (inFlight 0 []) = false := by decide

/-- P6 and `WAITIDLE`: the accesses of a polling host. -/
theorem test_waitIdle : waitIdle 1 = [r32 0x008, .engine, r32 0x008] := by decide

/-- R101: the values a `WAITIDLE` may read end with the first that has bit [0] clear. -/
theorem test_waitIdleEnds :
    waitIdleEnds [0x1, 0x5, 0xa106] = true ∧ waitIdleEnds [0x1] = false ∧ waitIdleEnds [0x2, 0x2] = false := by decide

/-- R101: the six key pseudo-instructions, with the words R100 gives or its format makes. -/
theorem test_key_pseudo_instructions :
    setkey128 = w32 0x004 0x00001001 ∧ setkey192 = w32 0x004 0x00001801 ∧ setkey256 = w32 0x004 0x00002001 ∧
    setdkey128 = w32 0x004 0x00001002 ∧ setdkey192 = w32 0x004 0x00001802 ∧ setdkey256 = w32 0x004 0x00002002 := by
  decide

/-- `WKEY` of `000102..0f` and `CMD SETKEY_ENC 16` (P1). -/
theorem test_program_words :
    wkey (countingKey.toList.take 2) = [w32 0x020 0x03020100, w32 0x024 0x07060504] ∧
    cmd (.setkeyEnc 16) = w32 0x004 0x00001001 := by decide +kernel

/-! ### States that meet the hypotheses of the obligations

One theorem per obligation with hypotheses; its parts follow the obligation's clauses, at boundary values. -/

/-- An idle block before one access and the rest of a program. -/
def before (a : Access) : State := idleWith [.access a]

/-- A block with `SETKEY_ENC 16` in flight before one access. -/
def busyBefore (a : Access) : State := inFlight 0x1001 [.access a]

/-- A valid context of direction `d`, with no length, no buffers and a 4096-byte `DBUF`. -/
def withContext (d : Dir) : State := { State.reset with ctxValid := true, ctxDir := d, nr := 10 }

theorem withContext_hasContext (d : Dir) : HasContext (withContext d) d := ⟨rfl, rfl⟩

/-- A legal key length. -/
theorem keylen_16 : 16 = 16 ∨ 16 = 24 ∨ 16 = 32 := .inl rfl

theorem keylen_32 : 32 = 16 ∨ 32 = 24 ∨ 32 = 32 := .inr (.inr rfl)

/-- The first and the last byte of the window are legal accesses, with a 4096-byte buffer and with a 16-byte one. -/
theorem dbufLegal_edges :
    DbufLegal State.reset 0x1000 4 ∧ DbufLegal State.reset 0x1FFF 1 ∧ DbufLegal State.reset 0x1FFE 2 ∧
    DbufLegal { State.reset with cfg := { dbufSize := 16, tables := Tables.standard } } 0x100C 4 := by
  unfold DbufLegal
  decide

theorem witness_DecodeReadsEveryEncodedCommand :
    (Instr.setkeyEnc 63).WellFormed ∧ (Instr.setkeyDec 0).WellFormed ∧ (Instr.selfTest true).WellFormed := by decide

theorem witness_EveryCommandHasOneWord :
    decode 0x00003f02 = .command (.setkeyDec 63) ∧ decode 0x00010009 = .command (.selfTest true) := by decide

theorem witness_IllegalWordsCompleteWithCode4 :
    (∀ w, (inFlight w []).seq = .busy w ∧ (inFlight w []).inputs = []) ∧
    (∀ w, (inFlight w [.engine]).seq = .busy w ∧ (inFlight w [.engine]).inputs = .engine :: []) ∧
    IllegalWord 0x0000000b ∧ IllegalWord 0x00000010 ∧ IllegalWord 0x00008000 ∧ IllegalWord 0x80000000 ∧
    IllegalWord 0x00000100 ∧ IllegalWord 0x00010000 ∧
    ¬ IllegalWord 0x0000000a ∧ ¬ IllegalWord 0x00003f01 ∧ ¬ IllegalWord 0x00010009 := by
  unfold IllegalWord
  refine ⟨fun w => ⟨rfl, rfl⟩, fun w => ⟨rfl, rfl⟩, ?_, ?_, ?_, ?_, ?_, ?_, ?_, ?_, ?_⟩ <;> decide

theorem witness_StepCompletesTheDecodedCommand :
    (decode 0x1001 = .command (.setkeyEnc 16)) ∧
    ((inFlight 0x1001 []).seq = .busy 0x1001 ∧ (inFlight 0x1001 []).inputs = []) ∧
    ((inFlight 0x1001 [.engine]).seq = .busy 0x1001 ∧ (inFlight 0x1001 [.engine]).inputs = .engine :: []) ∧
    ((idleWith []).seq = .idle ∧ (idleWith []).inputs = []) ∧
    ((idleWith [.engine]).seq = .idle ∧ (idleWith [.engine]).inputs = .engine :: []) ∧
    decode (tableWord 32 0x10009) = .command (.selfTest true) := by
  refine ⟨by decide, ⟨rfl, rfl⟩, ⟨rfl, rfl⟩, ⟨rfl, rfl⟩, ⟨rfl, rfl⟩, by decide⟩

theorem witness_CmdWriteIssues :
    ((before (.write 0x004 4 0x1001)).seq = .idle ∧
      (before (.write 0x004 4 0x1001)).inputs = .access (.write 0x004 4 0x1001) :: []) ∧
    ((busyBefore (.write 0x004 4 3)).seq = .busy 0x1001 ∧
      (busyBefore (.write 0x004 4 3)).inputs = .access (.write 0x004 4 3) :: []) :=
  ⟨⟨rfl, rfl⟩, rfl, rfl⟩

theorem witness_BusyWritesAreDropped :
    (∀ offset size v, (busyBefore (.write offset size v)).seq = .busy 0x1001 ∧
      (busyBefore (.write offset size v)).inputs = .access (.write offset size v) :: []) ∧
    (0x00C % 4 = 0 ∧ 0x00C ≤ 0x00C ∧ 0x00C ≤ 0x06C) ∧ (0x06C % 4 = 0 ∧ 0x00C ≤ 0x06C ∧ 0x06C ≤ 0x06C) ∧
    DbufLegal (busyBefore (.write 0x1FFF 1 0)) 0x1FFF 1 ∧ DbufLegal (busyBefore (.write 0x1000 4 0)) 0x1000 4 ∧
    (0x070 % 4 = 0 ∧ 0x070 ≤ 0xFFC) ∧ (0xFFC % 4 = 0 ∧ 0x070 ≤ 0xFFC) := by
  refine ⟨fun offset size v => ⟨rfl, rfl⟩, by decide, by decide, ?_, ?_, by decide, by decide⟩ <;> unfold DbufLegal <;>
    decide

theorem witness_BusyReadsAreUnspecified :
    (∀ offset size, (busyBefore (.read offset size)).seq = .busy 0x1001 ∧
      (busyBefore (.read offset size)).inputs = .access (.read offset size) :: []) ∧
    DbufLegal (busyBefore (.read 0x1FFE 2)) 0x1FFE 2 ∧
    (0x04C % 4 = 0 ∧ 0x040 ≤ 0x04C ∧ 0x04C ≤ 0x04C) ∧ (0x060 % 4 = 0 ∧ 0x060 ≤ 0x060 ∧ 0x060 ≤ 0x06C) ∧
    (0x03C % 4 = 0 ∧ 0x020 ≤ 0x03C ∧ 0x03C ≤ 0x03C) ∧ (0x074 % 4 = 0 ∧ 0x074 ≤ 0x074 ∧ 0x074 ≤ 0xFFC) := by
  refine ⟨fun offset size => ⟨rfl, rfl⟩, ?_, by decide⟩
  unfold DbufLegal
  decide

theorem witness_IdleRegisterReads :
    (∀ offset, (before (.read offset 4)).seq = .idle ∧
      (before (.read offset 4)).inputs = .access (.read offset 4) :: []) ∧
    (0x020 % 4 = 0 ∧ 0x020 ≤ 0x03C) ∧ (0x074 % 4 = 0 ∧ 0x074 ≤ 0xFFC) ∧ (0xFFC % 4 = 0 ∧ 0x074 ≤ 0xFFC) :=
  ⟨fun _ => ⟨rfl, rfl⟩, by decide⟩

theorem witness_IdleRegisterWrites :
    (∀ offset v, (before (.write offset 4 v)).seq = .idle ∧
      (before (.write offset 4 v)).inputs = .access (.write offset 4 v) :: []) ∧
    (0x01C % 4 = 0) ∧ (0x060 % 4 = 0 ∧ 0x060 ≤ 0xFFC) ∧ (0xFFC % 4 = 0 ∧ 0x060 ≤ 0xFFC) :=
  ⟨fun _ _ => ⟨rfl, rfl⟩, by decide⟩

theorem witness_ReadsHaveNoSideEffects :
    ∃ t, (busyBefore (.read 0x1000 4)).inputs = .access (.read 0x1000 4) :: [] ∧
      step (busyBefore (.read 0x1000 4)) = .next t ∧
      ((busyBefore (.read (0x050 + 4 * 3) 4)).seq = .busy 0x1001 ∧ 3 < 4 ∧
        (busyBefore (.read (0x050 + 4 * 3) 4)).inputs = .access (.read (0x050 + 4 * 3) 4) :: []) :=
  ⟨_, rfl, rfl, rfl, by decide, rfl⟩

theorem witness_RegisterSpaceAlignment :
    (0x008 < 0x1000 ∧ (2 ≠ 4 ∨ 0x008 % 4 ≠ 0) ∧ (before (.read 0x008 2)).inputs = .access (.read 0x008 2) :: []) ∧
    (0xFFD < 0x1000 ∧ (4 ≠ 4 ∨ 0xFFD % 4 ≠ 0) ∧ (before (.write 0xFFD 4 0)).inputs = .access (.write 0xFFD 4 0) :: []) :=
  ⟨⟨by decide, by decide, rfl⟩, by decide, by decide, rfl⟩

theorem witness_UndecodedAccessesAnswerError :
    (0x1000 ≤ 0x2000 ∧ ¬ DbufLegal (before (.read 0x2000 4)) 0x2000 4 ∧
      (before (.read 0x2000 4)).inputs = .access (.read 0x2000 4) :: []) ∧
    (0x1000 ≤ 0x1FFE ∧ ¬ DbufLegal (before (.write 0x1FFE 4 0)) 0x1FFE 4 ∧
      (before (.write 0x1FFE 4 0)).inputs = .access (.write 0x1FFE 4 0) :: []) := by
  refine ⟨⟨by decide, ?_, rfl⟩, by decide, ?_, rfl⟩ <;> unfold DbufLegal <;> decide

theorem witness_DbufWindowAccess :
    ((before (.write 0x1FFF 1 7)).seq = .idle ∧ DbufLegal (before (.write 0x1FFF 1 7)) 0x1FFF 1 ∧
      (before (.write 0x1FFF 1 7)).inputs = .access (.write 0x1FFF 1 7) :: []) ∧
    ((before (.read 0x1000 4)).seq = .idle ∧ DbufLegal (before (.read 0x1000 4)) 0x1000 4 ∧
      (before (.read 0x1000 4)).inputs = .access (.read 0x1000 4) :: []) := by
  refine ⟨⟨rfl, ?_, rfl⟩, rfl, ?_, rfl⟩ <;> unfold DbufLegal <;> decide

theorem witness_DbufMixedWidthView :
    let s := idleWith [w32 0x1000 0x04030201, .access (.read 0x1002 2)]
    s.seq = .idle ∧ DbufLegal s 0x1000 4 ∧ DbufLegal s 0x1002 2 ∧
      s.inputs = .access (.write 0x1000 4 0x04030201) :: .access (.read 0x1002 2) :: [] := by
  refine ⟨rfl, ?_, ?_, rfl⟩ <;> unfold DbufLegal <;> decide

theorem witness_RegisterByteOrder :
    ((before (.write (0x020 + 4 * 7) 4 1)).seq = .idle ∧ 7 < 8 ∧
      (before (.write (0x020 + 4 * 7) 4 1)).inputs = .access (.write (0x020 + 4 * 7) 4 1) :: []) ∧
    ((before (.write (0x040 + 4 * 3) 4 1)).seq = .idle ∧ 3 < 4 ∧
      (before (.write (0x040 + 4 * 3) 4 1)).inputs = .access (.write (0x040 + 4 * 3) 4 1) :: []) ∧
    ((before (.write (0x050 + 4 * 0) 4 1)).seq = .idle ∧ 0 < 4 ∧
      (before (.write (0x050 + 4 * 0) 4 1)).inputs = .access (.write (0x050 + 4 * 0) 4 1) :: []) ∧
    ((before (.read (0x060 + 4 * 3) 4)).seq = .idle ∧ 3 < 4 ∧
      ((0x060 = 0x040 ∧ Block.zero = (before (.read (0x060 + 4 * 3) 4)).iv) ∨
        (0x060 = 0x050 ∧ Block.zero = (before (.read (0x060 + 4 * 3) 4)).din) ∨
        (0x060 = 0x060 ∧ Block.zero = (before (.read (0x060 + 4 * 3) 4)).dout)) ∧
      (before (.read (0x060 + 4 * 3) 4)).inputs = .access (.read (0x060 + 4 * 3) 4) :: []) :=
  ⟨⟨rfl, by decide, rfl⟩, ⟨rfl, by decide, rfl⟩, ⟨rfl, by decide, rfl⟩, rfl, by decide, .inr (.inr ⟨rfl, rfl⟩), rfl⟩

theorem witness_IrqRisesAndFalls :
    (∃ t, (before (.write 0x008 4 2)).inputs = .access (.write 0x008 4 2) :: [] ∧ (2 : Word).getLsbD 1 = true ∧
      step (before (.write 0x008 4 2)) = .next t) ∧
    (∃ t, (before (.write 0x004 4 0)).seq = .idle ∧
      (before (.write 0x004 4 0)).inputs = .access (.write 0x004 4 0) :: [] ∧
      step (before (.write 0x004 4 0)) = .next t) ∧
    (∃ t, (inFlight 0 [.reset]).inputs = .reset :: [] ∧ step (inFlight 0 [.reset]) = .next t) ∧
    (∃ t, (busyBefore (.write 0x000 4 1)).inputs = .access (.write 0x000 4 1) :: [] ∧
      step (busyBefore (.write 0x000 4 1)) = .next t) ∧
    (∃ t, (inFlight 0 []).seq = .busy 0 ∧ engineTurn (inFlight 0 []) = .next t) :=
  ⟨⟨_, rfl, by decide, rfl⟩, ⟨_, rfl, rfl, rfl⟩, ⟨_, rfl, rfl⟩, ⟨_, rfl, rfl⟩, _, rfl, rfl⟩

theorem witness_SetkeyEncCompletes : 32 = 16 ∨ 32 = 24 ∨ 32 = 32 := keylen_32

theorem witness_SetkeyDecCompletes : 16 = 16 ∨ 16 = 24 ∨ 16 = 32 := keylen_16

theorem witness_InvalidKeyLengthMakesContextUnusable :
    (20 ≠ 16 ∧ 20 ≠ 24 ∧ 20 ≠ 32) ∧ (63 ≠ 16 ∧ 63 ≠ 24 ∧ 63 ≠ 32) ∧
    (∃ t, exec (.setkeyEnc 33) State.reset = .next t ∨ exec (.setkeyDec 33) State.reset = .next t) ∧
    (∃ t, (inFlight 0x00001401 []).seq = .busy 0x00001401 ∧ (inFlight 0x00001401 []).inputs = [] ∧
      step (inFlight 0x00001401 []) = .next t) :=
  ⟨by decide, by decide, ⟨_, .inl rfl⟩, _, rfl, rfl, rfl⟩

theorem witness_KeyExpansionRecurrence : 32 = 16 ∨ 32 = 24 ∨ 32 = 32 := keylen_32

theorem witness_SchedulesGroupAndReverse : 32 = 16 ∨ 32 = 24 ∨ 32 = 32 := keylen_32

theorem witness_ContextsOfOneKeyAgree : 16 = 16 ∨ 16 = 24 ∨ 16 = 32 := keylen_16

theorem witness_EcbCompletes : HasContext (withContext .enc) .enc ∧ HasContext (withContext .dec) .dec :=
  ⟨withContext_hasContext .enc, withContext_hasContext .dec⟩

/-- One block, ending exactly at `DBUF_SIZE` (V-CBC-13). -/
theorem witness_CbcEncCompletes :
    let s := operands (withContext .enc) 16 4080 0 Block.zero
    HasContext s .enc ∧ s.len.toNat % 16 = 0 ∧ InRange s := by
  refine ⟨⟨rfl, rfl⟩, by decide, ?_⟩
  unfold InRange
  decide

theorem witness_CbcDecCompletes :
    let s := operands (withContext .dec) 4096 0 0 Block.zero
    HasContext s .dec ∧ s.len.toNat % 16 = 0 ∧ InRange s := by
  refine ⟨⟨rfl, rfl⟩, by decide, ?_⟩
  unfold InRange
  decide

theorem witness_CfbEncCompletes :
    let s := { operands (withContext .enc) 1 4095 0 Block.zero with offset := 15 }
    HasContext s .enc ∧ InRange s := by
  refine ⟨⟨rfl, rfl⟩, ?_⟩
  unfold InRange
  decide

theorem witness_CfbDecCompletes :
    let s := operands (withContext .enc) 0 4096 4096 Block.zero
    HasContext s .enc ∧ InRange s := by
  refine ⟨⟨rfl, rfl⟩, ?_⟩
  unfold InRange
  decide

theorem witness_CfbOffsetAfter :
    let s := { operands (withContext .enc) 40 0 0x100 Block.zero with offset := 8 }
    HasContext s .enc ∧ InRange s := by
  refine ⟨⟨rfl, rfl⟩, ?_⟩
  unfold InRange
  decide

theorem witness_CbcIvIsLastCiphertext :
    (let s := operands (withContext .enc) 0 0 0 Block.zero
     HasContext s .enc ∧ s.len.toNat % 16 = 0 ∧ InRange s ∧ s.len = 0) ∧
    (let s := operands (withContext .enc) 16 0 16 Block.zero
     HasContext s .enc ∧ s.len.toNat % 16 = 0 ∧ InRange s ∧ 16 ≤ s.len.toNat) ∧
    (let s := operands (withContext .dec) 0 0 0 Block.zero
     HasContext s .dec ∧ s.len.toNat % 16 = 0 ∧ InRange s ∧ s.len = 0) ∧
    (let s := operands (withContext .dec) 32 0 16 Block.zero
     HasContext s .dec ∧ s.len.toNat % 16 = 0 ∧ InRange s ∧ 16 ≤ s.len.toNat) := by
  unfold InRange
  refine ⟨⟨⟨rfl, rfl⟩, by decide⟩, ⟨⟨rfl, rfl⟩, by decide⟩, ⟨⟨rfl, rfl⟩, by decide⟩, ⟨⟨rfl, rfl⟩, by decide⟩⟩

theorem witness_CbcContinuation :
    let s := withContext .dec
    ((Instr.cbcDec = .cbcEnc ∧ Dir.dec = .enc) ∨ (Instr.cbcDec = .cbcDec ∧ Dir.dec = .dec)) ∧ s.cfg.legal = true ∧
      HasContext s .dec ∧ 16 % 16 = 0 ∧ 4080 % 16 = 0 ∧ s.src.toNat + (16 + 4080) ≤ s.cfg.dbufSize ∧
      s.dst.toNat + (16 + 4080) ≤ s.cfg.dbufSize :=
  ⟨.inr ⟨rfl, rfl⟩, by decide, ⟨rfl, rfl⟩, by decide⟩

theorem witness_CfbContinuation :
    let s := withContext .enc
    (Instr.cfbDec = .cfbEnc ∨ Instr.cfbDec = .cfbDec) ∧ s.cfg.legal = true ∧ HasContext s .enc ∧
      s.src.toNat + (5 + 20) ≤ s.cfg.dbufSize ∧ s.dst.toNat + (5 + 20) ≤ s.cfg.dbufSize :=
  ⟨.inr rfl, by decide, ⟨rfl, rfl⟩, by decide⟩

theorem witness_SelfTestCompletes : State.reset.cfg.tables = Tables.standard ∧ 11 < 12 := ⟨rfl, by decide⟩

theorem witness_ContractViolationIsRefused :
    (((Instr.cfbDec = .ecbEnc ∨ Instr.cfbDec = .cbcEnc ∨ Instr.cfbDec = .cfbEnc ∨ Instr.cfbDec = .cfbDec) ∧
        Dir.enc = .enc) ∧ ¬ HasContext (withContext .dec) .enc) ∧
    (((Instr.cbcDec = .ecbDec ∨ Instr.cbcDec = .cbcDec) ∧ Dir.dec = .dec) ∧ ¬ HasContext State.reset .dec) ∧
    (∃ t, step { State.reset with faults := [.contractViolation] } = .next t ∧
      HostFault.contractViolation ∈ ({ State.reset with faults := [.contractViolation] } : State).faults) := by
  refine ⟨⟨by decide, fun h => by cases h.2⟩, ⟨by decide, fun h => by cases h.1⟩, _, rfl, by simp⟩

theorem witness_LengthAndRangeErrors :
    (let s := operands (withContext .enc) 20 4090 0 Block.zero
     ((Instr.cbcEnc = .cbcEnc ∧ Dir.enc = .enc) ∨ (Instr.cbcEnc = .cbcDec ∧ Dir.enc = .dec)) ∧ HasContext s .enc ∧
       s.len.toNat % 16 ≠ 0) ∧
    (∃ t, Instr.cfbEnc ≠ .cbcEnc ∧ Instr.cfbEnc ≠ .cbcDec ∧ exec .cfbEnc State.reset = .next t) ∧
    (let s := operands (withContext .dec) 0x20 0xFFFFFFF0 0 Block.zero
     ((Instr.cbcDec = .cbcEnc ∧ Dir.dec = .enc) ∨ (Instr.cbcDec = .cbcDec ∧ Dir.dec = .dec)) ∧ HasContext s .dec ∧
       s.len.toNat % 16 = 0 ∧ ¬ InRange s) ∧
    (let s := operands (withContext .enc) 1 0 4096 Block.zero
     (Instr.cfbEnc = .cfbEnc ∨ Instr.cfbEnc = .cfbDec) ∧ HasContext s .enc ∧ ¬ InRange s) := by
  unfold InRange
  refine ⟨⟨by decide, ⟨rfl, rfl⟩, by decide⟩, ⟨_, by decide, by decide, rfl⟩, ⟨by decide, ⟨rfl, rfl⟩, by decide⟩, by decide,
    ⟨rfl, rfl⟩, by decide⟩

theorem witness_FirstFailingCheckIsReported :
    ∃ t, (inFlight 0x5 []).seq = .busy 0x5 ∧ engineTurn (inFlight 0x5 []) = .next t := ⟨_, rfl, rfl⟩

theorem witness_FailedCommandsChangeNothingElse :
    (∃ t, exec .ecbEnc State.reset = .next t ∧ t.err ≠ .ok) ∧
    (∃ t, exec (.setkeyDec 20) State.reset = .next t ∧ t.err ≠ .ok) :=
  ⟨⟨_, rfl, by decide⟩, _, rfl, by decide⟩

theorem witness_CommandsWriteOnlyTheirRegisters :
    (∃ t, exec .nop State.reset = .next t) ∧ (∃ t, exec .clearCtx State.reset = .next t) ∧
    (Instr.nop ≠ .cbcEnc ∧ Instr.nop ≠ .cbcDec ∧ Instr.nop ≠ .cfbEnc ∧ Instr.nop ≠ .cfbDec ∧ Instr.nop ≠ .ecbEnc ∧
      Instr.nop ≠ .ecbDec ∧ Instr.nop ≠ .clearCtx ∧ ∀ v, Instr.nop ≠ .selfTest v) :=
  ⟨⟨_, rfl⟩, ⟨_, rfl⟩, by decide⟩

theorem witness_ContextChangesOnlyByKeyCommands :
    (∃ t, step { inFlight 0x2 [] with ctxValid := true } = .next t ∧
      ¬ (t.ctxValid = true ∧ t.ctxDir = .enc ∧ t.nr = 0 ∧ t.rk = State.reset.rk)) ∧
    (∃ t, exec (.setkeyDec 20) State.reset = .next t) ∧ (∃ t, exec (.setkeyEnc 20) State.reset = .next t) :=
  ⟨⟨_, rfl, by decide⟩, ⟨_, rfl⟩, _, rfl⟩

theorem witness_OvrSetAndCleared :
    (∃ t, step (busyBefore (.write 0x050 4 1)) = .next t ∧ (busyBefore (.write 0x050 4 1)).ovr = false ∧ t.ovr = true) ∧
    (∃ t, step { before (.write 0x008 4 4) with ovr := true } = .next t ∧ t.ovr = false) :=
  ⟨⟨_, rfl, rfl, by decide⟩, _, rfl, by decide⟩

theorem witness_ResetGivesTheResetState :
    (inFlight 0x3 [.reset]).inputs = .reset :: [] ∧
    (Instr.cfbDec = .ecbEnc ∨ Instr.cfbDec = .ecbDec ∨ Instr.cfbDec = .cbcEnc ∨ Instr.cfbDec = .cbcDec ∨
      Instr.cfbDec = .cfbEnc ∨ Instr.cfbDec = .cfbDec) := ⟨rfl, by decide⟩

theorem witness_ResetRedrawsDbuf :
    (inFlight 0x3 [.reset]).inputs = .reset :: [] ∧
    (Memory.get? State.reset.dbuf 4 = none ∧ (4 < 0 ∨ 0 + 4 ≤ 4)) ∧
    (∃ t, (¬ ∃ rest, (idleWith []).inputs = .reset :: rest) ∧ step (idleWith []) = .next t) :=
  ⟨rfl, ⟨rfl, by decide⟩, _, nofun, rfl⟩

theorem witness_HostAndEngineInEitherOrder :
    (inFlight 0 [w32 0x008 2, .engine]).seq = .busy 0 ∧
    (inFlight 0 [w32 0x008 2, .engine]).inputs = .access (.write 0x008 4 2) :: .engine :: [] ∧
    (inFlight 0 [.engine, w32 0x008 2]).inputs = .engine :: .access (.write 0x008 4 2) :: [] ∧
    (inFlight 0 [w32 0x004 2, .engine]).inputs = .access (.write 0x004 4 2) :: .engine :: [] ∧
    (0x00C % 4 = 0 ∧ 0x00C ≤ 0x00C ∧ 0x00C ≤ 0x06C) ∧ (0x06C % 4 = 0 ∧ 0x00C ≤ 0x06C ∧ 0x06C ≤ 0x06C) ∧
    (DbufLegal (inFlight 0 [w8 0x1FFF 2, .engine]) 0x1FFF 1 ∧
      (inFlight 0 [w8 0x1FFF 2, .engine]).inputs = .access (.write 0x1FFF 1 2) :: .engine :: []) := by
  refine ⟨rfl, rfl, rfl, rfl, by decide, by decide, ?_, rfl⟩
  unfold DbufLegal
  decide

theorem witness_KeyMaterialIsUnreadable : 0 < 8 ∧ 7 < 8 := by decide

theorem witness_SlotsAboveNrAreNeverRead :
    (∃ t, (∀ r, r ≤ State.reset.nr.toNat → slot State.reset.rk r = slot State.reset.rk r) ∧
      exec .clearCtx State.reset = .next t) ∧
    (∃ t, (exec (.setkeyEnc 20) State.reset = .next t ∨ exec (.setkeyDec 20) State.reset = .next t) ∧
      t.nr.toNat < 14) :=
  ⟨⟨_, fun _ _ => rfl, rfl⟩, _, .inl rfl, by decide⟩

theorem witness_KeyWritesLeaveTheContext :
    (7 < 8 ∧ (before (.write (0x020 + 4 * 7) 4 1)).inputs = .access (.write (0x020 + 4 * 7) 4 1) :: []) ∧
    (∃ t, (Instr.cfbDec = .ecbEnc ∨ Instr.cfbDec = .ecbDec ∨ Instr.cfbDec = .cbcEnc ∨ Instr.cfbDec = .cbcDec ∨
      Instr.cfbDec = .cfbEnc ∨ Instr.cfbDec = .cfbDec) ∧ exec .cfbDec State.reset = .next t) :=
  ⟨⟨by decide, rfl⟩, _, by decide, rfl⟩

theorem witness_StepKeepsMemoryForm :
    ∃ t, memoryWf (before (.write 0x1FFF 1 7)) ∧ step (before (.write 0x1FFF 1 7)) = .next t := ⟨_, rfl, rfl⟩

theorem witness_StepKeepsStatusLegal :
    ∃ t, (roundCountLegal (inFlight 0 []) ∧ doneNotBusy (inFlight 0 []) ∧ passNeedsRun (inFlight 0 [])) ∧
      step (inFlight 0 []) = .next t :=
  ⟨_, ⟨⟨.inl rfl, nofun⟩, nofun, fun _ => rfl⟩, rfl⟩

/-- A context loaded by `SETKEY_ENC 16`. -/
theorem witness_StepKeepsContextScheduled :
    ∃ t, contextScheduled (encContext countingKey 16) ∧ (encContext countingKey 16).ctxValid = true ∧
      step (encContext countingKey 16) = .next t := by
  refine ⟨_, fun _ => ⟨countingKey, 16, rfl, rfl, fun r hr => ?_⟩, rfl, rfl⟩
  have hr : r < 11 := by
    simp only [roundCount] at hr
    omega
  have h : ∀ r : Fin 11, (encContext countingKey 16).rk.toList.getD r Block.zero =
      (encSchedule Tables.standard countingKey.toList 16).keys.getD r Block.zero := by decide +kernel
  exact h ⟨r, hr⟩

theorem witness_SboxIsAffineOfInverse : (0xff : Byte) ≠ 0 ∧ gmul 0x53 0xca = 1 := by decide

theorem witness_RoundStepsByIndexAndMatrix : 3 < 4 ∧ 0 < 4 := by decide

theorem witness_InvCipherInvertsCipher : 16 = 16 ∨ 16 = 24 ∨ 16 = 32 := keylen_16

theorem witness_CbcRoundTrip :
    let s := operands State.reset 16 0 16 Block.zero
    s.cfg.tables = Tables.standard ∧ (16 = 16 ∨ 16 = 24 ∨ 16 = 32) ∧ s.len.toNat % 16 = 0 ∧ InRange s ∧
      InPlaceOrApart s := by
  unfold InRange InPlaceOrApart
  refine ⟨rfl, keylen_16, by decide⟩

theorem witness_CfbRoundTrip :
    let s := operands State.reset 5 0 0 Block.zero
    (16 = 16 ∨ 16 = 24 ∨ 16 = 32) ∧ s.offset = 0 ∧ InRange s ∧ InPlaceOrApart s := by
  unfold InRange InPlaceOrApart
  refine ⟨keylen_16, by decide⟩

end Sys2Proof.Tests
end

section
/-!
SUPPORT. The Cipher Context (10_state.md R30 to R32): which steps leave it alone, what a key command stores in it, and
what the cipher reads of it.
-/

namespace Sys2Proof.Proofs

open Sys2Proof.Machine Sys2Proof.Claims

/-! ### Steps that leave the context alone -/

/-- The two states hold the same context: `CTX_VALID`, `CTX_DIR`, `NR` and `RK` (10_state.md R30). -/
def SameContext (s t : State) : Prop :=
  t.ctxValid = s.ctxValid ∧ t.ctxDir = s.ctxDir ∧ t.nr = s.nr ∧ t.rk = s.rk

/-- The commands that change the context (10_state.md R32). -/
def KeyCommand (i : Instr) : Prop := i = .clearCtx ∨ ∃ k, i = .setkeyEnc k ∨ i = .setkeyDec k

theorem sameContext_refl (s : State) : SameContext s s := ⟨rfl, rfl, rfl, rfl⟩

theorem sameContext_of_streamFrame {s t : State} (h : StreamFrame s t) : SameContext s t := by
  unfold StreamFrame at h
  rw [h]
  exact sameContext_refl s

theorem regWrite_sameContext (r : Reg) (v : Word) (s : State) : SameContext s (regWrite r v s) := by
  cases r <;> exact sameContext_refl s

theorem dbufWrite_sameContext (s : State) (a size : Nat) (v : Word) : SameContext s (dbufWrite s a size v) := by
  simp [SameContext, dbufWrite]

theorem hostWrite_sameContext (offset size : Nat) (v : Word) (s : State) :
    SameContext s (hostWrite offset size v s) := by
  obtain ⟨-, e⟩ | ⟨-, -, e⟩ | ⟨-, -, e⟩ := hostWrite_cases offset size v s <;> rw [e]
  · split
    · exact sameContext_refl s
    · exact regWrite_sameContext (regAt offset) v s
  · split
    · exact sameContext_refl s
    · exact dbufWrite_sameContext s (offset - 0x1000) size v
  · exact sameContext_refl s

/-- No host access reaches the context (10_state.md R32, R33). -/
theorem hostAccess_sameContext (a : Access) (s : State) : SameContext s (hostAccess a s) := by
  cases a with
  | read offset size =>
    rw [hostAccess, hostRead_frame]
    exact sameContext_refl s
  | write offset size v => exact hostWrite_sameContext offset size v s

/-- Only a key command's body touches the context. -/
theorem bodyOf_sameContext {i : Instr} (s : State) (h : ¬ KeyCommand i) : SameContext s (bodyOf i s) := by
  cases i with
  | setkeyEnc k => exact absurd (.inr ⟨k, .inl rfl⟩) h
  | setkeyDec k => exact absurd (.inr ⟨k, .inr rfl⟩) h
  | clearCtx => exact absurd (.inl rfl) h
  | nop => exact sameContext_refl s
  | selfTest verbose => exact sameContext_refl s
  | ecbEnc => simp only [bodyOf]; split <;> exact sameContext_refl s
  | ecbDec => simp only [bodyOf]; split <;> exact sameContext_refl s
  | cbcEnc => exact sameContext_of_streamFrame (bodyOf_stream s (by simp))
  | cbcDec => exact sameContext_of_streamFrame (bodyOf_stream s (by simp))
  | cfbEnc => exact sameContext_of_streamFrame (bodyOf_stream s (by simp))
  | cfbDec => exact sameContext_of_streamFrame (bodyOf_stream s (by simp))

theorem exec_sameContext {i : Instr} {s t : State} (hi : ¬ KeyCommand i) (h : exec i s = .next t) :
    SameContext s t := by
  rw [exec_eq] at h
  rw [← next_inj h]
  exact bodyOf_sameContext s hi

/-- An engine turn that changes the context completes a key command. -/
theorem engineTurn_keyCommand {s t : State} (h : engineTurn s = .next t) (hc : ¬ SameContext s t) :
    ∃ w i, s.seq = .busy w ∧ decode w = .command i ∧ KeyCommand i := by
  obtain ⟨-, e⟩ | ⟨w, why, -, -, e⟩ | ⟨w, i, hs, hd, e⟩ := engineTurn_cases s <;> rw [e] at h
  · exact absurd (next_inj h ▸ sameContext_refl s) hc
  · exact absurd (next_inj h ▸ sameContext_refl s) hc
  · exact ⟨w, i, hs, hd, by_contra fun hi => hc (exec_sameContext hi h)⟩

/-! ### What SETKEY stores -/

/-- The schedule has its `nr + 1` round keys, and they fit the fifteen slots (41_key_schedule.md R142, R143). -/
def Fits (sched : Schedule) : Prop := sched.keys.length = sched.nr + 1 ∧ sched.nr ≤ 14

theorem encSchedule_fits (T : Tables) (K : Vector Column 8) {keylen : Nat} (h : keylenOk keylen = true) :
    Fits (encSchedule T K.toList keylen) := by
  have words : (keyExpansion T K.toList keylen).length = 4 * (roundCount keylen + 1) := by
    obtain rfl | rfl | rfl := (keylenOk_iff keylen).1 h <;> simp [keyExpansion, expandWords_length, roundCount]
  have rounds : roundCount keylen ≤ 14 := by
    obtain rfl | rfl | rfl := (keylenOk_iff keylen).1 h <;> decide
  exact ⟨groupWords_length _ _ words, rounds⟩

theorem decSchedule_fits (T : Tables) (K : Vector Column 8) {keylen : Nat} (h : keylenOk keylen = true) :
    Fits (decSchedule T K.toList keylen) := by
  obtain ⟨-, hnr⟩ := encSchedule_fits T K h
  exact ⟨by simp [decSchedule], hnr⟩

theorem slot_of_lt (rk : Vector Block 15) {r : Nat} (h : r < 15) : slot rk r = rk[r] := by
  simp [slot, List.getD_eq_getElem?_getD, h]

theorem slot_of_ge (rk : Vector Block 15) {r : Nat} (h : 15 ≤ r) : slot rk r = Block.zero := by
  simp [slot, List.getD_eq_getElem?_getD, h]

/-- A schedule that fits fills the slots `0..nr` and no other (10_state.md R31). -/
theorem slot_storeKeys {sched : Schedule} (h : Fits sched) (rk : Vector Block 15) (r : Nat) :
    slot (storeKeys rk 0 sched.keys) r = if r ≤ sched.nr then sched.keys.getD r Block.zero else slot rk r := by
  obtain ⟨hlen, hnr⟩ := h
  by_cases hr : r < 15
  · simp [slot_of_lt _ hr, storeKeys_getElem, hlen]
  · rw [if_neg (by omega), slot_of_ge _ (by omega), slot_of_ge _ (by omega)]

theorem loadContext_nr_toNat {sched : Schedule} (h : Fits sched) (d : Dir) (s : State) :
    (loadContext d sched s).nr.toNat = sched.nr := by
  obtain ⟨-, hnr⟩ := h
  simp only [loadContext_nr, BitVec.toNat_ofNat]
  omega

/-- `SETKEY_ENC` loads a schedule that fits, or makes the context unusable (41_key_schedule.md R144, R147). -/
theorem exec_setkeyEnc_cases {k : Nat} {s t : State} (h : exec (.setkeyEnc k) s = .next t) :
    (Fits (encSchedule s.cfg.tables s.key.toList k) ∧
      t = finish .ok (loadContext .enc (encSchedule s.cfg.tables s.key.toList k) s)) ∨
    t = finish .invalidKeyLength (dropContext s) := by
  simp only [exec, execSetkeyEnc] at h
  split at h
  next hk => exact .inl ⟨encSchedule_fits _ _ hk, (next_inj h).symm⟩
  next => exact .inr (next_inj h).symm

/-- `SETKEY_DEC` loads a schedule that fits, or makes the context unusable (41_key_schedule.md R145, R147). -/
theorem exec_setkeyDec_cases {k : Nat} {s t : State} (h : exec (.setkeyDec k) s = .next t) :
    (Fits (decSchedule s.cfg.tables s.key.toList k) ∧
      t = finish .ok (loadContext .dec (decSchedule s.cfg.tables s.key.toList k) s)) ∨
    t = finish .invalidKeyLength (dropContext s) := by
  simp only [exec, execSetkeyDec] at h
  split at h
  next hk => exact .inl ⟨decSchedule_fits _ _ hk, (next_inj h).symm⟩
  next => exact .inr (next_inj h).symm

/-! ### What the cipher reads of the context -/

/-- The state with other round-key slots. -/
def withRk (R : Vector Block 15) (s : State) : State := { s with rk := R }

/-- The slots `R` agree with the state's on `0..NR`, the slots the datapath reads (10_state.md R31). -/
def SlotsAgree (R : Vector Block 15) (s : State) : Prop := ∀ r, r ≤ s.nr.toNat → slot R r = slot s.rk r

theorem slotsAgree_of_sameContext {R : Vector Block 15} {s t : State} (h : SameContext s t) (hR : SlotsAgree R s) :
    SlotsAgree R t := by
  obtain ⟨-, -, hnr, hrk⟩ := h
  simpa only [SlotsAgree, hnr, hrk] using hR

/-- Encryption with `nr` rounds reads the round keys `0..nr` only (42_block_transform.md R160). -/
theorem cipher_congr (T : Tables) {nr : Nat} {rk rk' : List Block}
    (h : ∀ r, r ≤ nr → rk'.getD r Block.zero = rk.getD r Block.zero) (b : Block) :
    cipher T nr rk' b = cipher T nr rk b := by
  have round : ∀ x r, r ∈ List.range' 1 (nr - 1) →
      cipherRound T x (rk'.getD r Block.zero) = cipherRound T x (rk.getD r Block.zero) := by
    intro x r hr
    rw [List.mem_range'_1] at hr
    rw [h r (by omega)]
  simp only [cipher, h 0 (Nat.zero_le nr), h nr le_rfl]
  rw [List.foldl_ext _ _ _ round]

/-- Decryption with `nr` rounds reads the round keys `0..nr` only (42_block_transform.md R161). -/
theorem invCipher_congr (T : Tables) {nr : Nat} {dk dk' : List Block}
    (h : ∀ r, r ≤ nr → dk'.getD r Block.zero = dk.getD r Block.zero) (b : Block) :
    invCipher T nr dk' b = invCipher T nr dk b := by
  have round : ∀ x r, r ∈ List.range' 1 (nr - 1) →
      invCipherRound T x (dk'.getD r Block.zero) = invCipherRound T x (dk.getD r Block.zero) := by
    intro x r hr
    rw [List.mem_range'_1] at hr
    rw [h r (by omega)]
  simp only [invCipher, h 0 (Nat.zero_le nr), h nr le_rfl]
  rw [List.foldl_ext _ _ _ round]

theorem memWrite_withRk (R : Vector Block 15) (s : State) (a : Nat) (vs : List Byte) :
    memWrite (withRk R s) a vs = withRk R (memWrite s a vs) := by
  induction vs generalizing s a with
  | nil => rfl
  | cons v vs ih => exact ih (setDbufByte s a v) (a + 1)

section

variable {R : Vector Block 15}

theorem encryptBlock_withRk {s : State} (h : SlotsAgree R s) : encryptBlock (withRk R s) = encryptBlock s :=
  funext (cipher_congr s.cfg.tables h)

theorem decryptBlock_withRk {s : State} (h : SlotsAgree R s) : decryptBlock (withRk R s) = decryptBlock s :=
  funext (invCipher_congr s.cfg.tables h)

theorem cbcEncUnit_withRk (j : Nat) (s : State) (h : SlotsAgree R s) :
    cbcEncUnit j (withRk R s) = withRk R (cbcEncUnit j s) := by
  simp only [cbcEncUnit, encryptBlock_withRk h, memWriteBlock, memWrite_withRk]
  rfl

theorem cbcDecUnit_withRk (j : Nat) (s : State) (h : SlotsAgree R s) :
    cbcDecUnit j (withRk R s) = withRk R (cbcDecUnit j s) := by
  simp only [cbcDecUnit, decryptBlock_withRk h, memWriteBlock, memWrite_withRk]
  rfl

theorem refreshKeystream_withRk {s : State} (h : SlotsAgree R s) :
    refreshKeystream (withRk R s) = withRk R (refreshKeystream s) := by
  have offset : (withRk R s).offset = s.offset := rfl
  simp only [refreshKeystream, offset, encryptBlock_withRk h]
  split <;> rfl

theorem cfbEncByte_withRk (i : Nat) (s : State) (h : SlotsAgree R s) :
    cfbEncByte i (withRk R s) = withRk R (cfbEncByte i s) := by
  simp only [cfbEncByte, refreshKeystream_withRk h]
  rfl

theorem cfbDecByte_withRk (i : Nat) (s : State) (h : SlotsAgree R s) :
    cfbDecByte i (withRk R s) = withRk R (cfbDecByte i s) := by
  simp only [cfbDecByte, refreshKeystream_withRk h]
  rfl

/-- A mode's loop keeps the context, so each pass meets slots that agree. -/
theorem forUpTo_withRk {body : Nat → State → State} (hframe : ∀ j s, StreamFrame s (body j s))
    (hpass : ∀ j s, SlotsAgree R s → body j (withRk R s) = withRk R (body j s))
    (n : Nat) {s : State} (h : SlotsAgree R s) :
    forUpTo body n (withRk R s) = withRk R (forUpTo body n s) := by
  induction n with
  | zero => rfl
  | succ n ih =>
    have agree : SlotsAgree R (forUpTo body n s) :=
      slotsAgree_of_sameContext (sameContext_of_streamFrame (forUpTo_frame hframe n s)) h
    simp only [forUpTo, ih, hpass n _ agree]

end

theorem codeOf_withRk (i : Instr) (R : Vector Block 15) (s : State) : codeOf i (withRk R s) = codeOf i s := by
  cases i <;> rfl

/-- The body of a command that is no key command reads no slot above `NR` and leaves every slot alone. -/
theorem bodyOf_withRk {i : Instr} {R : Vector Block 15} {s : State} (hi : ¬ KeyCommand i) (h : SlotsAgree R s) :
    bodyOf i (withRk R s) = withRk R (bodyOf i s) := by
  have hecb : ∀ d, ecbChecks d (withRk R s) = ecbChecks d s := fun _ => rfl
  have hcbc : ∀ d, cbcChecks d (withRk R s) = cbcChecks d s := fun _ => rfl
  have hcfb : cfbChecks (withRk R s) = cfbChecks s := rfl
  cases i with
  | setkeyEnc k => exact absurd (.inr ⟨k, .inl rfl⟩) hi
  | setkeyDec k => exact absurd (.inr ⟨k, .inr rfl⟩) hi
  | clearCtx => exact absurd (.inl rfl) hi
  | nop => rfl
  | selfTest verbose => rfl
  | ecbEnc => simp only [bodyOf, hecb, encryptBlock_withRk h]; split <;> rfl
  | ecbDec => simp only [bodyOf, hecb, decryptBlock_withRk h]; split <;> rfl
  | cbcEnc => simp only [bodyOf, hcbc]; split; exacts [forUpTo_withRk cbcEncUnit_frame cbcEncUnit_withRk _ h, rfl]
  | cbcDec => simp only [bodyOf, hcbc]; split; exacts [forUpTo_withRk cbcDecUnit_frame cbcDecUnit_withRk _ h, rfl]
  | cfbEnc => simp only [bodyOf, hcfb]; split; exacts [forUpTo_withRk cfbEncByte_frame cfbEncByte_withRk _ h, rfl]
  | cfbDec => simp only [bodyOf, hcfb]; split; exacts [forUpTo_withRk cfbDecByte_frame cfbDecByte_withRk _ h, rfl]

/-- Over either content of the slots a schedule that fits leaves slots that agree on `0..NR`. -/
theorem loadContext_slotsAgree {sched : Schedule} (hf : Fits sched) (d : Dir) (R : Vector Block 15) (s : State) :
    SlotsAgree (storeKeys R 0 sched.keys) (loadContext d sched s) := by
  intro r hr
  rw [loadContext_nr_toNat hf] at hr
  rw [loadContext_rk, slot_storeKeys hf, slot_storeKeys hf, if_pos hr, if_pos hr]

/-- Other slots above `NR` change a command's body in `RK` only, and in no slot of a context valid after it. -/
theorem bodyOf_withRk_exists (i : Instr) {R : Vector Block 15} {s : State} (h : SlotsAgree R s) :
    ∃ R', bodyOf i (withRk R s) = withRk R' (bodyOf i s) ∧
      ((bodyOf i s).ctxValid = true → SlotsAgree R' (bodyOf i s)) := by
  by_cases hi : KeyCommand i
  · obtain rfl | ⟨k, rfl | rfl⟩ := hi
    · exact ⟨(clearContext s).rk, rfl, nofun⟩
    · by_cases hk : keylenOk k = true
      · simp only [bodyOf, if_pos hk]
        exact ⟨_, rfl, fun _ => loadContext_slotsAgree (encSchedule_fits _ _ hk) .enc R s⟩
      · simp only [bodyOf, if_neg hk]
        exact ⟨R, rfl, nofun⟩
    · by_cases hk : keylenOk k = true
      · simp only [bodyOf, if_pos hk]
        exact ⟨_, rfl, fun _ => loadContext_slotsAgree (decSchedule_fits _ _ hk) .dec R s⟩
      · simp only [bodyOf, if_neg hk]
        exact ⟨R, rfl, nofun⟩
  · exact ⟨R, bodyOf_withRk hi h, fun _ => slotsAgree_of_sameContext (bodyOf_sameContext s hi) h⟩

/-- `SETKEY_*` stores no round key above the new `NR`. -/
theorem loadContext_slot_above {sched : Schedule} (hf : Fits sched) (d : Dir) (s : State) {r : Nat}
    (hr : (loadContext d sched s).nr.toNat < r) : slot (loadContext d sched s).rk r = slot s.rk r := by
  rw [loadContext_nr_toNat hf] at hr
  rw [loadContext_rk, slot_storeKeys hf, if_neg (by omega)]

/-! ### What the bus reads of the context and the key -/

theorem memRead_congr {s t : State} (hd : t.dbuf = s.dbuf) (he : t.epoch = s.epoch) (a n : Nat) :
    memRead t a n = memRead s a n := by
  induction n generalizing a with
  | zero => rfl
  | succ n ih => rw [memRead, memRead, dbufByte_congr hd he, ih]

theorem regRead_withKeyMaterial (r : Reg) (s : State) (K : Vector Column 8) (R : Vector Block 15) :
    regRead r { s with key := K, rk := R } = regRead r s := by
  cases r <;> rfl

/-- The response to a write says whether the access is legal, and nothing else. -/
theorem hostWrite_resp (offset size : Nat) (v : Word) (s : State) :
    (hostWrite offset size v s).resp =
      some ⟨if regLegal offset size || dbufLegal s.cfg offset size then .okay else .error, none⟩ := by
  obtain ⟨hr, e⟩ | ⟨hr, hd, e⟩ | ⟨hr, hd, e⟩ := hostWrite_cases offset size v s <;> rw [e]
  · split <;> simp [hr]
  · split <;> simp [hd]
  · simp [hr, hd]

theorem hostRead_resp_withKeyMaterial (offset size : Nat) (s : State) (K : Vector Column 8) (R : Vector Block 15) :
    (hostRead offset size { s with key := K, rk := R }).resp = (hostRead offset size s).resp := by
  have hbusy : busy { s with key := K, rk := R } = busy s := rfl
  have hdbuf : ∀ a n, dbufRead { s with key := K, rk := R } a n = dbufRead s a n := fun a n =>
    congrArg lanesWord (memRead_congr (s := s) (t := { s with key := K, rk := R }) rfl rfl a n)
  simp only [hostRead, hbusy, hdbuf, regRead_withKeyMaterial]
  split
  · split <;> rfl
  · split
    · rfl
    · split
      · split <;> rfl
      · rfl

/-- No response of the bus depends on the key or on a round-key slot (10_state.md R31; 60_exceptions.md R252). -/
theorem hostAccess_resp_withKeyMaterial (a : Access) (s : State) (K : Vector Column 8) (R : Vector Block 15) :
    (hostAccess a { s with key := K, rk := R }).resp = (hostAccess a s).resp := by
  cases a with
  | read offset size => exact hostRead_resp_withKeyMaterial offset size s K R
  | write offset size v => simp only [hostAccess, hostWrite_resp]

end Sys2Proof.Proofs
end

section
/-!
PROOFS. The statements about the Cipher Context (10_state.md R31, R32).
-/

namespace Sys2Proof.Proofs

open Sys2Proof.Machine Sys2Proof.Claims

/-- A step that changes the context is a reset or the completion of a key command (10_state.md R32). -/
theorem step_context_change {s t : State} (h : step s = .next t) (hc : ¬ SameContext s t) :
    (∃ rest, s.inputs = .reset :: rest) ∨
    ((s.inputs = [] ∨ ∃ rest, s.inputs = .engine :: rest) ∧
      ∃ w i, s.seq = .busy w ∧ decode w = .command i ∧ KeyCommand i) := by
  obtain ⟨hi, e⟩ | ⟨rest, hi, e⟩ | ⟨a, rest, hi, e⟩ | ⟨rest, hi, e⟩ := step_cases s <;> rw [e] at h
  · exact .inr ⟨.inl hi, engineTurn_keyCommand h hc⟩
  · exact .inr ⟨.inr ⟨rest, hi⟩, engineTurn_keyCommand (s := { s with inputs := rest }) h hc⟩
  · exact absurd (next_inj h ▸ hostAccess_sameContext a { s with inputs := rest }) hc
  · exact .inl ⟨rest, hi⟩

/-- Settles O42: the steps are told apart by `step_cases`, and `SETKEY_*` by whether its key length is legal. -/
theorem contextChangesOnlyByKeyCommands : Obligations.ContextChangesOnlyByKeyCommands := by
  unfold Obligations.ContextChangesOnlyByKeyCommands
  refine ⟨fun s t h hc => step_context_change h hc, fun s t k d sched h => ?_⟩
  have setkey : (Fits sched ∧ t = finish .ok (loadContext d sched s)) ∨
      t = finish .invalidKeyLength (dropContext s) := by
    obtain ⟨h, rfl, rfl⟩ | ⟨h, rfl, rfl⟩ := h
    · exact exec_setkeyEnc_cases h
    · exact exec_setkeyDec_cases h
  obtain ⟨hf, rfl⟩ | rfl := setkey
  · refine .inl ⟨rfl, rfl, rfl, loadContext_nr_toNat hf d s, fun r hr => ?_⟩
    rw [finish_rk, loadContext_rk, slot_storeKeys hf, if_pos hr]
  · exact .inr ⟨rfl, rfl, rfl, rfl, rfl⟩

/-- Settles O48: a command's code and body are followed over two contents of the slots that agree on `0..NR`. -/
theorem slotsAboveNrAreNeverRead : Obligations.SlotsAboveNrAreNeverRead := by
  unfold Obligations.SlotsAboveNrAreNeverRead
  refine ⟨fun i s t R hR h => ?_, fun s t k r h hr => ?_,
    fun s a R => hostAccess_resp_withKeyMaterial a s s.key R⟩
  · obtain ⟨R', hbody, hslots⟩ := bodyOf_withRk_exists i hR
    rw [exec_eq] at h
    obtain rfl := next_inj h
    refine ⟨_, exec_eq i (withRk R s), ?_, fun r hr hv => ?_⟩
    · rw [codeOf_withRk, hbody]
      rfl
    · rw [hbody]
      exact hslots hv r hr
  · have setkey : (∃ d sched, Fits sched ∧ t = finish .ok (loadContext d sched s)) ∨
        t = finish .invalidKeyLength (dropContext s) := by
      obtain h | h := h
      · exact (exec_setkeyEnc_cases h).imp_left fun hl => ⟨_, _, hl⟩
      · exact (exec_setkeyDec_cases h).imp_left fun hl => ⟨_, _, hl⟩
    obtain ⟨d, sched, hf, rfl⟩ | rfl := setkey
    · exact loadContext_slot_above hf d s hr
    · rfl

end Sys2Proof.Proofs
end

section
/-!
SUPPORT. One rule per kind of host access (20_memory.md R63 to R71), the registers the map gives at the offsets those
rules name, and the bytes a bus word carries to and from the registers and `DBUF`.
-/

namespace Sys2Proof.Proofs

open Sys2Proof.Machine Sys2Proof.Claims

/-! ### Which rule an access falls under -/

theorem dbufLegal_eq_true {s : State} {offset size : Nat} :
    dbufLegal s.cfg offset size = true ↔ DbufLegal s offset size :=
  dbufLegal_iff s.cfg offset size

theorem dbufLegal_eq_false {s : State} {offset size : Nat} :
    dbufLegal s.cfg offset size = false ↔ ¬ DbufLegal s offset size := by
  rw [← dbufLegal_eq_true, Bool.not_eq_true]

theorem inRegSpace_eq_false {offset : Nat} : inRegSpace offset = false ↔ 0x1000 ≤ offset := by
  simp [inRegSpace]

theorem inRegSpace_of_dbufLegal {s : State} {offset size : Nat} (h : DbufLegal s offset size) :
    inRegSpace offset = false := by
  obtain ⟨hlo, -⟩ := h
  exact inRegSpace_eq_false.2 hlo

theorem size_le_of_dbufLegal {s : State} {offset size : Nat} (h : DbufLegal s offset size) : size ≤ 4 := by
  obtain ⟨-, -, hsize, -⟩ := h
  omega

theorem regLegal_eq_false {offset size : Nat} :
    regLegal offset size = false ↔ 0x1000 ≤ offset ∨ size ≠ 4 ∨ offset % 4 ≠ 0 := by
  rw [← Bool.not_eq_true, regLegal_iff]
  omega

theorem regLegal_word {offset : Nat} (ho : offset < 0x1000) (h : offset % 4 = 0) : regLegal offset 4 = true :=
  (regLegal_iff offset 4).2 ⟨ho, rfl, h⟩

theorem busy_withInputs (s : State) (rest : List Input) : busy { s with inputs := rest } = busy s := rfl

section

variable {s : State} {offset size : Nat} {v : Word} {rest : List Input}

/-! ### Reads -/

section

variable (hi : s.inputs = .access (.read offset size) :: rest)
include hi

/-- A register read with a defined value changes nothing (20_memory.md R63, R69, R71). -/
theorem step_read_register (hr : regLegal offset size = true)
    (hd : busy s = false ∨ readDefinedWhileBusy (regAt offset) = true) :
    step s = .next { s with inputs := rest, resp := some ⟨.okay, some (regRead (regAt offset) s)⟩ } := by
  have defined : (busy s && !readDefinedWhileBusy (regAt offset)) = false := by
    obtain h | h := hd <;> simp [h]
  have value : regRead (regAt offset) { s with inputs := rest } = regRead (regAt offset) s := by
    cases regAt offset <;> rfl
  rw [step_access hi, hostAccess, hostRead, if_pos hr, busy_withInputs, defined, value]
  rfl

/-- A read that R71 leaves unspecified draws its value. -/
theorem step_read_drawn (hb : busy s = true)
    (h : (regLegal offset size = true ∧ readDefinedWhileBusy (regAt offset) = false) ∨ DbufLegal s offset size) :
    step s = .next { s with inputs := rest, draws := s.draws + 1, resp := some ⟨.okay, some (freshWord s)⟩ } := by
  rw [step_access hi, hostAccess, hostRead]
  obtain ⟨hr, hd⟩ | h := h
  · rw [if_pos hr, busy_withInputs, hb, hd]
    rfl
  · have hl := dbufLegal_eq_true.2 h
    simp only [regLegal_of_dbufLegal hl, inRegSpace_of_dbufLegal h, hl, busy_withInputs, hb,
      Bool.false_eq_true, ↓reduceIte]
    rfl

/-- A legal window read while idle returns its bytes and changes nothing (20_memory.md R66). -/
theorem step_read_dbuf (hb : busy s = false) (h : DbufLegal s offset size) :
    step s = .next { s with inputs := rest, resp := some ⟨.okay, some (dbufRead s (offset - 0x1000) size)⟩ } := by
  have hl := dbufLegal_eq_true.2 h
  have value : dbufRead { s with inputs := rest } (offset - 0x1000) size = dbufRead s (offset - 0x1000) size :=
    congrArg lanesWord (memRead_congr (s := s) (t := { s with inputs := rest }) rfl rfl _ size)
  rw [step_access hi, hostAccess, hostRead]
  simp only [regLegal_of_dbufLegal hl, inRegSpace_of_dbufLegal h, hl, busy_withInputs, hb, value,
    Bool.false_eq_true, ↓reduceIte]
  rfl

/-- A misshapen read of the register space answers `ERROR` with data 0 (20_memory.md R63). -/
theorem step_read_misaligned (ho : offset < 0x1000) (h : size ≠ 4 ∨ offset % 4 ≠ 0) :
    step s = .next (respondError (.read offset size) (some 0) { s with inputs := rest }) := by
  have hr : regLegal offset size = false := regLegal_eq_false.2 (.inr h)
  have hs : inRegSpace offset = true := by simpa [inRegSpace] using ho
  rw [step_access hi, hostAccess, hostRead]
  simp only [hr, hs, Bool.false_eq_true, ↓reduceIte]

/-- A read that decodes to nothing answers `ERROR` with drawn data (20_memory.md R65, R67; log entry 8). -/
theorem step_read_undecoded (ho : 0x1000 ≤ offset) (h : ¬ DbufLegal s offset size) :
    step s = .next (respondError (.read offset size) (some (freshWord s)) (countDraw { s with inputs := rest })) := by
  have hr : regLegal offset size = false := regLegal_eq_false.2 (.inl ho)
  have hl := dbufLegal_eq_false.2 h
  rw [step_access hi, hostAccess, hostRead]
  simp only [hr, inRegSpace_eq_false.2 ho, hl, Bool.false_eq_true, ↓reduceIte]
  rfl

end

/-! ### Writes -/

section

variable (hi : s.inputs = .access (.write offset size v) :: rest)
include hi

/-- A register write that is not dropped is performed (20_memory.md R63, R70). -/
theorem step_write_register (hr : regLegal offset size = true)
    (hd : busy s = false ∨ writeDroppedWhileBusy (regAt offset) = false) :
    step s = .next (respondOkay none (regWrite (regAt offset) v { s with inputs := rest })) := by
  have performed : (busy s && writeDroppedWhileBusy (regAt offset)) = false := by
    obtain h | h := hd <;> simp [h]
  rw [step_access hi, hostAccess, hostWrite, if_pos hr, busy_withInputs, performed]
  rfl

/-- A write that R70 drops sets `OVR` and does nothing else. -/
theorem step_write_dropped (hb : busy s = true)
    (h : (regLegal offset size = true ∧ writeDroppedWhileBusy (regAt offset) = true) ∨ DbufLegal s offset size) :
    step s = .next { s with inputs := rest, ovr := true, resp := some ⟨.okay, none⟩ } := by
  rw [step_access hi, hostAccess, hostWrite]
  obtain ⟨hr, hd⟩ | h := h
  · rw [if_pos hr, busy_withInputs, hb, hd]
    rfl
  · have hl := dbufLegal_eq_true.2 h
    simp only [regLegal_of_dbufLegal hl, hl, busy_withInputs, hb, Bool.false_eq_true, ↓reduceIte]
    rfl

/-- A legal window write while idle changes the bytes of its range and nothing else (20_memory.md R66). -/
theorem step_write_dbuf (hb : busy s = false) (h : DbufLegal s offset size) :
    ∃ t, step s = .next t ∧ t = { s with inputs := rest, dbuf := t.dbuf, resp := some ⟨.okay, none⟩ } ∧
      ∀ b, dbufByte t b =
        if offset - 0x1000 ≤ b ∧ b < offset - 0x1000 + size then lane v (b - (offset - 0x1000)) else dbufByte s b := by
  have hl := dbufLegal_eq_true.2 h
  refine ⟨respondOkay none (dbufWrite { s with inputs := rest } (offset - 0x1000) size v), ?_, ?_, fun b => ?_⟩
  · rw [step_access hi, hostAccess, hostWrite]
    simp only [regLegal_of_dbufLegal hl, hl, busy_withInputs, hb, Bool.false_eq_true, ↓reduceIte]
  · rw [dbufWrite_frame]
    rfl
  · exact dbufByte_dbufWrite { s with inputs := rest } (offset - 0x1000) size v b

/-- A write that no rule accepts answers `ERROR` (20_memory.md R63, R65, R67). -/
theorem step_write_refused (hr : regLegal offset size = false) (h : ¬ DbufLegal s offset size) :
    step s = .next (respondError (.write offset size v) none { s with inputs := rest }) := by
  have hl := dbufLegal_eq_false.2 h
  rw [step_access hi, hostAccess, hostWrite]
  simp only [hr, hl, Bool.false_eq_true, ↓reduceIte]

end

end

/-! ### The register map at the offsets of the rules -/

theorem regAt_key {k : Nat} (hk : k < 8) : regAt (0x020 + 4 * k) = .key ⟨k, hk⟩ := by
  interval_cases k <;> rfl

theorem regAt_iv {k : Nat} (hk : k < 4) : regAt (0x040 + 4 * k) = .iv ⟨k, hk⟩ := by
  interval_cases k <;> rfl

theorem regAt_din {k : Nat} (hk : k < 4) : regAt (0x050 + 4 * k) = .din ⟨k, hk⟩ := by
  interval_cases k <;> rfl

theorem regAt_dout {k : Nat} (hk : k < 4) : regAt (0x060 + 4 * k) = .dout ⟨k, hk⟩ := by
  interval_cases k <;> rfl

/-- `CMD` and the registers from `LEN` to `DOUT` drop a write while busy (20_memory.md R70). -/
theorem writeDroppedWhileBusy_regAt {offset : Nat} (ha : offset % 4 = 0)
    (ho : offset = 0x004 ∨ (0x00C ≤ offset ∧ offset ≤ 0x06C)) : writeDroppedWhileBusy (regAt offset) = true := by
  obtain ⟨m, rfl⟩ := Nat.dvd_of_mod_eq_zero ha
  obtain ho | ⟨hlo, hhi⟩ := ho
  · rw [ho]
    rfl
  · obtain ⟨hlo, hhi⟩ : 3 ≤ m ∧ m ≤ 27 := by omega
    interval_cases m <;> rfl

/-- `ID` and the reserved offsets ignore a write, idle or busy (20_memory.md R70; 10_state.md R38, R39). -/
theorem regWrite_regAt_ignored {offset : Nat} (ho : 0x070 ≤ offset) (ha : offset % 4 = 0) (v : Word) (s : State) :
    writeDroppedWhileBusy (regAt offset) = false ∧ regWrite (regAt offset) v s = s := by
  obtain rfl | h : offset = 0x070 ∨ 0x074 ≤ offset := by omega
  · exact ⟨rfl, rfl⟩
  · rw [regAt_reserved h]
    exact ⟨rfl, rfl⟩

/-- The result registers have no defined value while busy (20_memory.md R71). -/
theorem readDefinedWhileBusy_result {offset : Nat} (ha : offset % 4 = 0)
    (ho : offset = 0x018 ∨ offset = 0x01C ∨ (0x040 ≤ offset ∧ offset ≤ 0x04C) ∨ (0x060 ≤ offset ∧ offset ≤ 0x06C)) :
    readDefinedWhileBusy (regAt offset) = false := by
  obtain ⟨m, rfl⟩ := Nat.dvd_of_mod_eq_zero ha
  obtain ho | ho | ⟨hlo, hhi⟩ | ⟨hlo, hhi⟩ := ho
  · rw [ho]
    rfl
  · rw [ho]
    rfl
  · obtain ⟨k, hk, rfl⟩ : ∃ k, k < 4 ∧ m = 16 + k := ⟨m - 16, by omega, by omega⟩
    rw [Nat.mul_add, regAt_iv hk]
    rfl
  · obtain ⟨k, hk, rfl⟩ : ∃ k, k < 4 ∧ m = 24 + k := ⟨m - 24, by omega, by omega⟩
    rw [Nat.mul_add, regAt_dout hk]
    rfl

/-- `CMD`, `KEY` and the reserved offsets read as 0, idle or busy (20_memory.md R71; 10_state.md R33, R39). -/
theorem regRead_regAt_zero {offset : Nat}
    (ho : offset = 0x004 ∨ (0x020 ≤ offset ∧ offset ≤ 0x03C) ∨ 0x074 ≤ offset) (s : State) :
    readDefinedWhileBusy (regAt offset) = true ∧ regRead (regAt offset) s = 0 := by
  obtain h | ⟨k, h⟩ | h := regAt_zero ho <;> rw [h] <;> exact ⟨rfl, rfl⟩

/-! ### Register words -/

theorem keyWord_set_same (s : State) {k : Nat} (hk : k < 8) (c : Column) :
    keyWord { s with key := s.key.set k c } k = c := by
  simp [keyWord, List.getD_eq_getElem?_getD, hk]

theorem keyWord_set_other (s : State) {k m : Nat} (hk : k < 8) (hne : m ≠ k) (c : Column) :
    keyWord { s with key := s.key.set k c } m = keyWord s m := by
  simp [keyWord, List.getD_eq_getElem?_getD, hne.symm]

theorem blockByte_word (b : Block) {k j : Nat} (hk : k < 4) (hj : j < 4) :
    blockByte b (4 * k + j) = columnByte (blockWord b ⟨k, hk⟩) j := by
  interval_cases k <;> interval_cases j <;> rfl

theorem blockByte_setBlockWord (b : Block) {k i : Nat} (hk : k < 4) (hi : i < 16) (c : Column) :
    blockByte (setBlockWord b ⟨k, hk⟩ c) i = if i / 4 = k then columnByte c (i % 4) else blockByte b i := by
  interval_cases k <;> interval_cases i <;> rfl

/-- A write of `v` to word `k` of a block register puts `v`'s lanes in its four bytes (20_memory.md R61). -/
theorem blockByte_writeWord_same (b : Block) {k : Nat} (hk : k < 4) (v : Word) (j : Nat) (hj : j < 4) :
    blockByte (setBlockWord b ⟨k, hk⟩ (wordColumn v)) (4 * k + j) = lane v j := by
  rw [blockByte_setBlockWord b hk (by omega), if_pos (by omega), show (4 * k + j) % 4 = j by omega,
    columnByte_wordColumn v j hj]

theorem blockByte_writeWord_other (b : Block) {k : Nat} (hk : k < 4) (v : Word) (i : Nat) (hi : i < 16)
    (hne : i / 4 ≠ k) : blockByte (setBlockWord b ⟨k, hk⟩ (wordColumn v)) i = blockByte b i := by
  rw [blockByte_setBlockWord b hk hi, if_neg hne]

/-- A read of word `k` of a block register carries its four bytes in the word's lanes (20_memory.md R61). -/
theorem lane_readWord (b : Block) {k j : Nat} (hk : k < 4) (hj : j < 4) :
    lane (columnWord (blockWord b ⟨k, hk⟩)) j = blockByte b (4 * k + j) := by
  rw [lane_columnWord _ j hj, blockByte_word b hk hj]

/-! ### Window words -/

/-- The word of at most four bytes is the number with those bytes as its digits to base 256. -/
theorem lanesWord_toNat {vs : List Byte} (hv : vs.length ≤ 4) :
    (lanesWord vs).toNat = Nat.ofDigits 256 (vs.map BitVec.toNat) := by
  induction vs with
  | nil => rfl
  | cons v vs ih =>
    rw [List.length_cons] at hv
    have digits : Nat.ofDigits 256 (vs.map BitVec.toNat) < 2 ^ 24 := by
      calc Nat.ofDigits 256 (vs.map BitVec.toNat)
          < 256 ^ (vs.map BitVec.toNat).length :=
            Nat.ofDigits_lt_base_pow_length (by decide) (by simpa using fun w _ => w.isLt)
        _ ≤ 256 ^ 3 := Nat.pow_le_pow_right (by decide) (by rw [List.length_map]; omega)
    have noWrap : Nat.ofDigits 256 (vs.map BitVec.toNat) <<< 8 < 2 ^ 32 := by
      rw [Nat.shiftLeft_eq]
      omega
    rw [lanesWord, BitVec.toNat_or, BitVec.toNat_setWidth_of_le (by decide), BitVec.toNat_shiftLeft, ih (by omega),
      Nat.mod_eq_of_lt noWrap, Nat.or_comm, ← Nat.shiftLeft_add_eq_or_of_lt v.isLt, Nat.shiftLeft_eq, List.map_cons,
      Nat.ofDigits_cons]
    omega

theorem ofDigits_memRead (s : State) (a n : Nat) :
    Nat.ofDigits 256 ((memRead s a n).map BitVec.toNat) =
      ∑ j ∈ Finset.range n, (dbufByte s (a + j)).toNat * 2 ^ (8 * j) := by
  induction n generalizing a with
  | zero => rfl
  | succ n ih =>
    rw [memRead, List.map_cons, Nat.ofDigits_cons, ih, Finset.sum_range_succ', Finset.mul_sum, add_comm]
    refine congrArg₂ (· + ·) (Finset.sum_congr rfl fun j _ => ?_) (by simp)
    rw [Nat.add_right_comm, Nat.add_assoc a j 1, Nat.mul_add, pow_add]
    ring

/-- A window read is the sum of its bytes at their places (20_memory.md R66). -/
theorem dbufRead_toNat (s : State) (a : Nat) {n : Nat} (hn : n ≤ 4) :
    (dbufRead s a n).toNat = ∑ j ∈ Finset.range n, (dbufByte s (a + j)).toNat * 2 ^ (8 * j) := by
  rw [dbufRead, lanesWord_toNat (by rwa [memRead_length]), ofDigits_memRead]

/-- The byte lanes of a window read: its bytes, and zeros above them (20_memory.md R66, R68). -/
theorem lane_dbufRead (s : State) (a : Nat) {n j : Nat} (hn : n ≤ 4) (hj : j < 4) :
    lane (dbufRead s a n) j = if j < n then dbufByte s (a + j) else 0 := by
  rw [dbufRead, lane_lanesWord _ (by rwa [memRead_length]) j hj]
  split
  next h => exact memRead_getD s a n j h
  next h => exact List.getD_eq_default _ _ (by rw [memRead_length]; omega)

end Sys2Proof.Proofs
end

section
/-!
PROOFS. The statements about the host bus and the byte order of its words (20_memory.md R61 to R71).
-/

namespace Sys2Proof.Proofs

open Sys2Proof.Machine Sys2Proof.Claims

/-- Settles O7: a write is dropped, performed or ignored by the register the map gives at its offset. -/
theorem busyWritesAreDropped : Obligations.BusyWritesAreDropped := by
  unfold Obligations.BusyWritesAreDropped
  intro s u v offset size rest hs hi
  have hb : busy s = true := busy_of_busy hs
  refine ⟨fun h => step_write_dropped hi hb (h.imp_left ?_), ?_, ?_, ?_⟩
  · rintro ⟨rfl, ha, ho⟩
    exact ⟨regLegal_word (by omega) ha, writeDroppedWhileBusy_regAt ha ho⟩
  · rintro rfl rfl
    exact step_write_register hi rfl (.inr rfl)
  · rintro rfl rfl
    exact step_write_register hi rfl (.inr rfl)
  · rintro rfl ha hlo hhi
    obtain ⟨notDropped, ignored⟩ := regWrite_regAt_ignored hlo ha v { s with inputs := rest }
    rw [step_write_register hi (regLegal_word (by omega) ha) (.inr notDropped), ignored]
    rfl

/-- Settles O8: a read is drawn or defined by the register the map gives at its offset. -/
theorem busyReadsAreUnspecified : Obligations.BusyReadsAreUnspecified := by
  unfold Obligations.BusyReadsAreUnspecified
  intro s u offset size rest hs hi
  have hb : busy s = true := busy_of_busy hs
  refine ⟨fun h => ⟨_, _, step_read_drawn hi hb (h.imp_left ?_), rfl⟩, ?_⟩
  · rintro ⟨rfl, ha, ho⟩
    exact ⟨regLegal_word (by omega) ha, readDefinedWhileBusy_result ha ho⟩
  · rintro rfl ha
    refine ⟨?_, ?_, ?_, ?_, ?_, ?_, fun ho => ?_⟩
    rotate_right
    · obtain ⟨defined, zero⟩ := regRead_regAt_zero (offset := offset) (by omega) s
      rw [step_read_register hi (regLegal_word (by omega) ha) (.inr defined), zero]
    all_goals
      rintro rfl
      exact step_read_register hi rfl (.inr rfl)

/-- Settles O14: no rule but the last accepts such an access, read or write. -/
theorem undecodedAccessesAnswerError : Obligations.UndecodedAccessesAnswerError := by
  unfold Obligations.UndecodedAccessesAnswerError
  exact ⟨fun s offset size rest ho hl hi => ⟨_, _, step_read_undecoded hi ho hl, rfl⟩,
    fun s offset size v rest ho hl hi => step_write_refused hi (regLegal_eq_false.2 (.inl ho)) hl⟩

/-- Settles O15: the bytes after `step_write_dbuf`, inside its range and outside, and the sum `step_read_dbuf` reads. -/
theorem dbufWindowAccess : Obligations.DbufWindowAccess := by
  unfold Obligations.DbufWindowAccess
  refine ⟨fun s offset size v rest hs hl hi => ?_, fun s offset size rest hs hl hi => ?_⟩
  · obtain ⟨t, e, ht, bytes⟩ := step_write_dbuf hi (busy_of_idle hs) hl
    refine ⟨t, e, ht, fun j hj => ?_, fun a ha => ?_⟩
    · rw [bytes, if_pos (by omega), Nat.add_sub_cancel_left]
      rfl
    · rw [bytes, if_neg (by omega)]
  · exact ⟨_, step_read_dbuf hi (busy_of_idle hs) hl, dbufRead_toNat s _ (size_le_of_dbufLegal hl)⟩

/-- Settles O16: the lanes of the read are bytes of the state the write leaves. -/
theorem dbufMixedWidthView : Obligations.DbufMixedWidthView := by
  unfold Obligations.DbufMixedWidthView
  intro s o₁ n₁ o₂ n₂ v rest hs h₁ h₂ hi
  obtain ⟨t, ewrite, ht, bytes⟩ := step_write_dbuf hi (busy_of_idle hs) h₁
  have idle : t.seq = .idle := (congrArg State.seq ht).trans hs
  have legal : DbufLegal t o₂ n₂ := by rw [DbufLegal, congrArg State.cfg ht]; exact h₂
  have eread := step_read_dbuf (congrArg State.inputs ht) (busy_of_idle idle) legal
  have size := size_le_of_dbufLegal h₂
  refine ⟨t, _, _, ewrite, eread, rfl, fun j hj => ?_, fun j hlo hj => ?_⟩
  · obtain ⟨lo₁, -⟩ := h₁
    obtain ⟨lo₂, -⟩ := h₂
    refine (lane_dbufRead t _ size (by omega)).trans ?_
    rw [if_pos hj, bytes, show o₂ - 0x1000 + j = o₂ + j - 0x1000 by omega,
      show o₂ + j - 0x1000 - (o₁ - 0x1000) = o₂ + j - o₁ by omega]
    exact if_congr (by omega) rfl rfl
  · exact (lane_dbufRead t _ size hj).trans (if_neg (by omega))

/-- Settles O17: each word's offset is looked up in the register map, and its four bytes are the lanes of the data. -/
theorem registerByteOrder : Obligations.RegisterByteOrder := by
  unfold Obligations.RegisterByteOrder
  refine ⟨fun s k v rest hs hk hi => ?_, fun s k v rest hs hk hi => ?_, fun s k v rest hs hk hi => ?_,
    fun s k base b rest hs hk hb hi => ?_⟩
  · have e := step_write_register hi (regLegal_word (by omega) (by omega)) (.inl (busy_of_idle hs))
    rw [regAt_key hk] at e
    refine ⟨_, e, rfl, fun j hj => ?_, fun m hm hne => ?_⟩
    · exact (congrArg (columnByte · j) (keyWord_set_same s hk _)).trans (columnByte_wordColumn v j hj)
    · exact keyWord_set_other s hk hne _
  · have e := step_write_register hi (regLegal_word (by omega) (by omega)) (.inl (busy_of_idle hs))
    rw [regAt_iv hk] at e
    exact ⟨_, e, rfl, blockByte_writeWord_same s.iv hk v, blockByte_writeWord_other s.iv hk v⟩
  · have e := step_write_register hi (regLegal_word (by omega) (by omega)) (.inl (busy_of_idle hs))
    rw [regAt_din hk] at e
    exact ⟨_, e, rfl, blockByte_writeWord_same s.din hk v, blockByte_writeWord_other s.din hk v⟩
  · have value : regRead (regAt (base + 4 * k)) s = columnWord (blockWord b ⟨k, hk⟩) := by
      obtain ⟨rfl, rfl⟩ | ⟨rfl, rfl⟩ | ⟨rfl, rfl⟩ := hb
      · rw [regAt_iv hk]
        rfl
      · rw [regAt_din hk]
        rfl
      · rw [regAt_dout hk]
        rfl
    refine ⟨_, step_read_register hi (regLegal_word (by omega) (by omega)) (.inl (busy_of_idle hs)), fun j hj => ?_⟩
    rw [value]
    exact lane_readWord b hk hj

/-- Settles O13: an offset below the window is no `DBUF` access, so a misshapen one is refused. -/
theorem registerSpaceAlignment : Obligations.RegisterSpaceAlignment := by
  unfold Obligations.RegisterSpaceAlignment
  refine ⟨fun s offset size rest ho h hi => step_read_misaligned hi ho h, fun s offset size v rest ho h hi => ?_⟩
  have outside : ¬ DbufLegal s offset size := fun ⟨hlo, _⟩ => absurd ho (Nat.not_lt.2 hlo)
  exact step_write_refused hi (regLegal_eq_false.2 (.inr h)) outside

end Sys2Proof.Proofs
end

section
/-!
SUPPORT. The field GF(2^8) and the round steps (40_primitives.md): the laws of `gmul`, the inverse, the S-box as an
affine map, and MixColumns as a matrix of column products.
-/

namespace Sys2Proof.Proofs

open Sys2Proof.Machine

/-! ### The laws of `gmul` (40_primitives.md R112) -/

theorem ite_xor_bits (p q : Bool) (c : Byte) :
    (if p ^^ q then c else 0) = (if p then c else 0) ^^^ (if q then c else 0) := by
  cases p <;> cases q <;> simp

theorem ite_xor_bytes (p : Bool) (c d : Byte) :
    (if p then c ^^^ d else 0) = (if p then c else 0) ^^^ (if p then d else 0) := by
  cases p <;> simp

theorem xtime_xor (a b : Byte) : xtime (a ^^^ b) = xtime a ^^^ xtime b := by
  simp only [xtime, BitVec.shiftLeft_xor_distrib, BitVec.getLsbD_xor, ite_xor_bits]
  ac_rfl

/-- A pass of the loop adds the multiple `t` or nothing. -/
theorem gmulLoop_succ (k : Nat) (b t r : Byte) :
    gmulLoop (k + 1) b t r = gmulLoop k (b >>> 1) (xtime t) (r ^^^ if b.getLsbD 0 then t else 0) := by
  rw [gmulLoop]
  cases b.getLsbD 0 <;> simp

theorem gmulLoop_xor_left (k : Nat) (b t t' r r' : Byte) :
    gmulLoop k b (t ^^^ t') (r ^^^ r') = gmulLoop k b t r ^^^ gmulLoop k b t' r' := by
  induction k generalizing b t t' r r' with
  | zero => rfl
  | succ k ih =>
    simp only [gmulLoop_succ, xtime_xor, ite_xor_bytes, ← ih]
    ac_rfl

theorem gmulLoop_xor_right (k : Nat) (b b' t r r' : Byte) :
    gmulLoop k (b ^^^ b') t (r ^^^ r') = gmulLoop k b t r ^^^ gmulLoop k b' t r' := by
  induction k generalizing b b' t r r' with
  | zero => rfl
  | succ k ih =>
    simp only [gmulLoop_succ, BitVec.ushiftRight_xor_distrib, BitVec.getLsbD_xor, ite_xor_bits, ← ih]
    ac_rfl

theorem gmul_xor_left (a a' b : Byte) : gmul (a ^^^ a') b = gmul a b ^^^ gmul a' b :=
  gmulLoop_xor_left 8 b a a' 0 0

theorem gmul_xor_right (a b b' : Byte) : gmul a (b ^^^ b') = gmul a b ^^^ gmul a b' :=
  gmulLoop_xor_right 8 b b' a 0 0

theorem gmul_zero (a : Byte) : gmul a 0 = 0 := rfl

/-- The loop adds `a` to 0 at the one bit of 1. -/
theorem gmul_one (a : Byte) : gmul a 1 = a := BitVec.zero_xor

/-- Bit `i` of a byte, in its place. -/
def bitTerm (a : Byte) (i : Fin 8) : Byte := if a.getLsbD i.val then (1 : Byte) <<< i.val else 0

theorem eq_sum_bitTerm (a : Byte) : a = (List.finRange 8).foldr (fun i sum => bitTerm a i ^^^ sum) 0 := by
  revert a
  decide +kernel

/-- Every byte is a sum of powers of x, so what holds of those and is kept by XOR holds of every byte. -/
theorem byte_induction {P : Byte → Prop} (power : ∀ i : Fin 8, P ((1 : Byte) <<< i.val))
    (xor : ∀ a b, P a → P b → P (a ^^^ b)) (a : Byte) : P a := by
  have zero : P 0 := xor _ _ (power 0) (power 0)
  have term : ∀ i, P (bitTerm a i) := fun i => by
    rw [bitTerm]
    split
    exacts [power i, zero]
  rw [eq_sum_bitTerm a]
  exact List.foldrRecOn _ _ zero fun sum h i _ => xor _ sum (term i) h

theorem gmul_comm (a b : Byte) : gmul a b = gmul b a := by
  induction a using byte_induction with
  | xor a a' ha ha' => rw [gmul_xor_left, gmul_xor_right, ha, ha']
  | power i =>
    induction b using byte_induction with
    | xor b b' hb hb' => rw [gmul_xor_left, gmul_xor_right, hb, hb']
    | power j =>
      revert i j
      decide

theorem gmulLoop_xtime (k : Nat) (b t r : Byte) : gmulLoop k b (xtime t) (xtime r) = xtime (gmulLoop k b t r) := by
  induction k generalizing b t r with
  | zero => rfl
  | succ k ih => simp only [gmulLoop, ← ih, ← xtime_xor, apply_ite xtime]

theorem gmul_xtime (a b : Byte) : gmul a (xtime b) = xtime (gmul a b) := by
  rw [gmul_comm, gmul_comm a]
  exact gmulLoop_xtime 8 a b 0

theorem gmul_gmulLoop (a : Byte) (k : Nat) (b t r : Byte) :
    gmul a (gmulLoop k b t r) = gmulLoop k b (gmul a t) (gmul a r) := by
  induction k generalizing b t r with
  | zero => rfl
  | succ k ih => simp only [gmulLoop, ih, gmul_xtime, ← gmul_xor_right, apply_ite (gmul a)]

theorem gmul_assoc (a b c : Byte) : gmul (gmul a b) c = gmul a (gmul b c) :=
  (gmul_gmulLoop a 8 c b 0).symm

/-! ### The inverse and the S-box (40_primitives.md R113, R114) -/

theorem gmul_right_inverse_unique {a b c : Byte} (hb : gmul a b = 1) (hc : gmul a c = 1) : b = c := by
  calc b = gmul b (gmul a c) := by rw [hc, gmul_one]
    _ = gmul c (gmul a b) := by rw [← gmul_assoc, gmul_comm, gmul_comm b]
    _ = c := by rw [hb, gmul_one]

/-- The search of `ginv` finds an inverse where there is one. -/
theorem gmul_ginv_of_inverse {a b : Byte} (h : gmul a b = 1) : gmul a (ginv a) = 1 := by
  have listed : b ∈ (List.range 256).map (BitVec.ofNat 8) :=
    List.mem_map.2 ⟨b.toNat, List.mem_range.2 b.isLt, by simp⟩
  obtain ⟨c, hc⟩ := Option.isSome_iff_exists.1
    (List.find?_isSome (p := fun b => gmul a b == 1).2 ⟨b, listed, by simpa using h⟩)
  rw [ginv, hc]
  simpa using List.find?_some hc

theorem ginv_eq_of_inverse {a b : Byte} (h : gmul a b = 1) : ginv a = b :=
  gmul_right_inverse_unique (gmul_ginv_of_inverse h) h

theorem ginv_zero : ginv 0 = 0 := by decide +kernel

/-- The affine map of the S-box (40_primitives.md R114). -/
def sBoxAffine (b : Byte) : Byte := b ^^^ rotl8 b 1 ^^^ rotl8 b 2 ^^^ rotl8 b 3 ^^^ rotl8 b 4 ^^^ 0x63

/-- The map that undoes `sBoxAffine`. -/
def sBoxAffineInv (y : Byte) : Byte := rotl8 y 1 ^^^ rotl8 y 3 ^^^ rotl8 y 6 ^^^ 0x05

theorem sBoxAffine_sBoxAffineInv (y : Byte) : sBoxAffine (sBoxAffineInv y) = y := by
  revert y
  decide +kernel

/-- Each entry of the S-box table, with the affine map taken off, is an inverse of its index. -/
theorem gmul_sBoxAffineInv_sBox {x : Byte} (h : x ≠ 0) :
    gmul x (sBoxAffineInv (sBox Tables.standard x)) = 1 := by
  revert x
  decide +kernel

theorem ginv_eq_sBoxAffineInv (x : Byte) : ginv x = sBoxAffineInv (sBox Tables.standard x) := by
  by_cases h : x = 0
  · rw [h, ginv_zero]
    decide
  · exact ginv_eq_of_inverse (gmul_sBoxAffineInv_sBox h)

theorem gmul_ginv {a : Byte} (h : a ≠ 0) : gmul a (ginv a) = 1 :=
  gmul_ginv_of_inverse (gmul_sBoxAffineInv_sBox h)

theorem sBox_eq_sBoxAffine (x : Byte) : sBox Tables.standard x = sBoxAffine (ginv x) := by
  rw [ginv_eq_sBoxAffineInv, sBoxAffine_sBoxAffineInv]

theorem sInv_sBox (x : Byte) : sInv Tables.standard (sBox Tables.standard x) = x := by
  revert x
  decide +kernel

/-! ### SubBytes and ShiftRows (40_primitives.md R121 to R124) -/

theorem mapBlock_shiftRows (f : Byte → Byte) (b : Block) : mapBlock f (shiftRows b) = shiftRows (mapBlock f b) := rfl

theorem mapBlock_invShiftRows (f : Byte → Byte) (b : Block) :
    mapBlock f (invShiftRows b) = invShiftRows (mapBlock f b) := rfl

@[simp] theorem invShiftRows_shiftRows (b : Block) : invShiftRows (shiftRows b) = b := rfl

@[simp] theorem invSubBytes_subBytes (b : Block) :
    invSubBytes Tables.standard (subBytes Tables.standard b) = b := by
  simp only [invSubBytes, subBytes, mapBlock, mapColumn, sInv_sBox]

theorem blockByte_shiftRows (b : Block) {r c : Nat} (hr : r < 4) (hc : c < 4) :
    blockByte (shiftRows b) (r + 4 * c) = blockByte b (r + 4 * ((c + r) % 4)) := by
  interval_cases r <;> interval_cases c <;> rfl

theorem blockByte_invShiftRows (b : Block) {r c : Nat} (hr : r < 4) (hc : c < 4) :
    blockByte (invShiftRows b) (r + 4 * c) = blockByte b (r + 4 * ((c + 4 - r) % 4)) := by
  interval_cases r <;> interval_cases c <;> rfl

/-! ### MixColumns (40_primitives.md R125, R126) -/

/-- A matrix row times a column, the row's entries second in each product, as in `mixColumn`. -/
def rowTimes (m a : Column) : Byte := gmul a.r0 m.r0 ^^^ gmul a.r1 m.r1 ^^^ gmul a.r2 m.r2 ^^^ gmul a.r3 m.r3

/-- A matrix row times the matrix of MixColumns. -/
def rowTimesMix (m : Column) : Column :=
  ⟨gmul m.r0 2 ^^^ m.r1 ^^^ m.r2 ^^^ gmul m.r3 3,
   gmul m.r0 3 ^^^ gmul m.r1 2 ^^^ m.r2 ^^^ m.r3,
   m.r0 ^^^ gmul m.r1 3 ^^^ gmul m.r2 2 ^^^ m.r3,
   m.r0 ^^^ m.r1 ^^^ gmul m.r2 3 ^^^ gmul m.r3 2⟩

theorem invMixColumn_eq_rowTimes (a : Column) :
    invMixColumn a = ⟨rowTimes ⟨14, 11, 13, 9⟩ a, rowTimes ⟨9, 14, 11, 13⟩ a, rowTimes ⟨13, 9, 14, 11⟩ a,
      rowTimes ⟨11, 13, 9, 14⟩ a⟩ := rfl

theorem rowTimes_xor (m a b : Column) : rowTimes m (a.xor b) = rowTimes m a ^^^ rowTimes m b := by
  simp only [rowTimes, Column.xor, gmul_xor_left]
  ac_rfl

/-- The matrix products associate. -/
theorem rowTimes_mixColumn (m a : Column) : rowTimes m (mixColumn a) = rowTimes (rowTimesMix m) a := by
  simp only [rowTimes, rowTimesMix, mixColumn, gmul_xor_left, gmul_xor_right, gmul_assoc, gmul_comm 2, gmul_comm 3]
  ac_rfl

@[simp] theorem invMixColumn_mixColumn (a : Column) : invMixColumn (mixColumn a) = a := by
  have row0 : rowTimesMix ⟨14, 11, 13, 9⟩ = ⟨1, 0, 0, 0⟩ := by decide
  have row1 : rowTimesMix ⟨9, 14, 11, 13⟩ = ⟨0, 1, 0, 0⟩ := by decide
  have row2 : rowTimesMix ⟨13, 9, 14, 11⟩ = ⟨0, 0, 1, 0⟩ := by decide
  have row3 : rowTimesMix ⟨11, 13, 9, 14⟩ = ⟨0, 0, 0, 1⟩ := by decide
  rw [invMixColumn_eq_rowTimes]
  simp only [rowTimes_mixColumn, row0, row1, row2, row3]
  simp only [rowTimes, gmul_zero, gmul_one]
  simp

@[simp] theorem invMixColumns_mixColumns (b : Block) : invMixColumns (mixColumns b) = b := by
  simp only [invMixColumns, mixColumns, invMixColumn_mixColumn]

theorem invMixColumn_xor (a b : Column) : invMixColumn (a.xor b) = (invMixColumn a).xor (invMixColumn b) := by
  simp only [invMixColumn_eq_rowTimes, rowTimes_xor]
  rfl

theorem invMixColumns_xor (a b : Block) : invMixColumns (a.xor b) = (invMixColumns a).xor (invMixColumns b) := by
  simp only [invMixColumns, Block.xor, invMixColumn_xor]

end Sys2Proof.Proofs
end

section
/-!
PROOFS. The statements about the AES primitives (40_primitives.md R113 to R128).
-/

namespace Sys2Proof.Proofs

open Sys2Proof.Machine Sys2Proof.Claims

/-- Settles O55: the affine map taken off the S-box table leaves an inverse of each index, and inverses are unique. -/
theorem sboxIsAffineOfInverse : Obligations.SboxIsAffineOfInverse := by
  unfold Obligations.SboxIsAffineOfInverse
  exact ⟨fun a ha => ⟨gmul_ginv ha, fun b hb => (ginv_eq_of_inverse hb).symm⟩, ginv_zero, sBox_eq_sBoxAffine, sInv_sBox⟩

/-- Settles O56: the matrix entries change places by `gmul_comm`, and each matrix row is linear. -/
theorem roundStepsByIndexAndMatrix : Obligations.RoundStepsByIndexAndMatrix := by
  unfold Obligations.RoundStepsByIndexAndMatrix
  refine ⟨fun b r c hr hc => ⟨blockByte_shiftRows b hr hc, blockByte_invShiftRows b hr hc⟩, fun a => ?_, fun a => ?_,
    fun b => ⟨rfl, rfl⟩, invMixColumns_xor⟩
  · simp only [mixColumn, gmul_comm 2, gmul_comm 3]
  · simp only [invMixColumn, gmul_comm 14, gmul_comm 11, gmul_comm 13, gmul_comm 9]

/-- Settles O57: a bytewise map commutes with a move of bytes, and the two matrices have the product 1. -/
theorem roundStepsInvert : Obligations.RoundStepsInvert := by
  unfold Obligations.RoundStepsInvert
  exact ⟨mapBlock_invShiftRows _, mapBlock_shiftRows _, invSubBytes_subBytes, invShiftRows_shiftRows,
    invMixColumns_mixColumns⟩

end Sys2Proof.Proofs
end

section
/-!
SUPPORT. The words of the key expansion (41_key_schedule.md R140, R141), the round keys of the two schedules (R142,
R143), and the state each `SETKEY_*` leaves for a legal key length (R144, R145).
-/

namespace Sys2Proof.Proofs

open Sys2Proof.Machine Sys2Proof.Claims

/-! ### The loop of the key expansion -/

theorem reverse_prefix_expandWords (T : Tables) (nk n i : Nat) (rev : List Column) :
    rev.reverse <+: expandWords T nk n i rev := by
  induction n generalizing i rev with
  | zero => exact List.prefix_rfl
  | succ n ih =>
    refine List.IsPrefix.trans ?_ (ih (i + 1) _)
    rw [List.reverse_cons]
    exact List.prefix_append _ _

/-- The loop keeps the words it starts from. -/
theorem expandWords_getD_of_lt (T : Tables) (nk n i : Nat) {rev : List Column} {j : Nat} (hj : j < rev.length) :
    (expandWords T nk n i rev).getD j Column.zero = rev.getD (rev.length - 1 - j) Column.zero := by
  obtain ⟨new, hnew⟩ := reverse_prefix_expandWords T nk n i rev
  rw [← hnew, List.getD_append _ _ _ _ (by rwa [List.length_reverse]), List.getD_eq_getElem?_getD,
    List.getElem?_reverse hj, List.getD_eq_getElem?_getD]

/-- Word `i` is the word `nk` places before it XOR the term of the word before it (41_key_schedule.md R140). -/
def MeetsRecurrence (T : Tables) (nk : Nat) (ws : List Column) (i : Nat) : Prop :=
  ws.getD i Column.zero =
    (ws.getD (i - nk) Column.zero).xor (expansionTerm T nk i (ws.getD (i - 1) Column.zero))

/-- The pass that adds word `i = rev.length` computes it from words that the later passes keep. -/
theorem expandWords_meetsRecurrence_first (T : Tables) {nk : Nat} (hnk : 0 < nk) (n : Nat) {rev : List Column}
    (hrev : nk ≤ rev.length) : MeetsRecurrence T nk (expandWords T nk (n + 1) rev.length rev) rev.length := by
  have added : (expandWords T nk (n + 1) rev.length rev).getD rev.length Column.zero =
      (rev.getD (nk - 1) Column.zero).xor (expansionTerm T nk rev.length (rev.headD Column.zero)) := by
    rw [expandWords, expandWords_getD_of_lt _ _ _ _ (by simp)]
    simp
  rw [MeetsRecurrence, added, expandWords_getD_of_lt _ _ _ _ (by omega), expandWords_getD_of_lt _ _ _ _ (by omega),
    List.headD_eq_getD, show rev.length - 1 - (rev.length - nk) = nk - 1 by omega,
    show rev.length - 1 - (rev.length - 1) = 0 by omega]

theorem expandWords_meetsRecurrence (T : Tables) {nk : Nat} (hnk : 0 < nk) (n : Nat) {rev : List Column}
    (hrev : nk ≤ rev.length) {i : Nat} (hlo : rev.length ≤ i) (hhi : i < rev.length + n) :
    MeetsRecurrence T nk (expandWords T nk n rev.length rev) i := by
  induction n generalizing rev with
  | zero => omega
  | succ n ih =>
    obtain rfl | later := Nat.eq_or_lt_of_le hlo
    · exact expandWords_meetsRecurrence_first T hnk n hrev
    · exact ih (rev := _ :: rev) (Nat.le_succ_of_le hrev) later (by rw [List.length_cons]; omega)

/-! ### The words -/

/-- A legal key length selects at least the first four words of the key register, and at most all eight. -/
theorem legal_wordCount {keylen : Nat} (h : keylen = 16 ∨ keylen = 24 ∨ keylen = 32) (K : Vector Column 8) :
    4 ≤ keylen / 4 ∧ keylen / 4 ≤ K.toList.length := by
  rw [Vector.length_toList]
  omega

section

variable (T : Tables) {K : List Column} {keylen : Nat} (hK : keylen / 4 ≤ K.length)
include hK

/-- The key expansion gives `4(Nr+1)` words. -/
theorem keyExpansion_length : (keyExpansion T K keylen).length = 4 * (roundCount keylen + 1) := by
  rw [keyExpansion, expandWords_length, List.length_reverse, List.length_take_of_le hK, roundCount]
  omega

/-- The first `Nk` words are the key's. -/
theorem keyExpansion_getD_key {i : Nat} (hi : i < keylen / 4) :
    (keyExpansion T K keylen).getD i Column.zero = K.getD i Column.zero := by
  obtain ⟨new, hnew⟩ := reverse_prefix_expandWords T (keylen / 4) (4 * (roundCount keylen + 1) - keylen / 4)
    (keylen / 4) (K.take (keylen / 4)).reverse
  rw [keyExpansion, ← hnew, List.reverse_reverse, List.getD_append _ _ _ _ (by rwa [List.length_take_of_le hK]),
    List.getD_eq_getElem?_getD, List.getElem?_take_of_lt hi, List.getD_eq_getElem?_getD]

/-- The words after the key's meet the recurrence. -/
theorem keyExpansion_meetsRecurrence (hpos : 0 < keylen / 4) {i : Nat} (hlo : keylen / 4 ≤ i)
    (hhi : i < 4 * (roundCount keylen + 1)) : MeetsRecurrence T (keylen / 4) (keyExpansion T K keylen) i := by
  have start : (K.take (keylen / 4)).reverse.length = keylen / 4 := by
    rw [List.length_reverse, List.length_take_of_le hK]
  have loop := expandWords_meetsRecurrence T hpos (4 * (roundCount keylen + 1) - keylen / 4) start.ge
    (i := i) (by omega) (by omega)
  rwa [start] at loop

end

/-! ### The term added (41_key_schedule.md R140, R141) -/

theorem expansionTerm_of_dvd (T : Tables) {nk i : Nat} (h : i % nk = 0) (t : Column) :
    expansionTerm T nk i t =
      Column.xor ⟨sBox T t.r1, sBox T t.r2, sBox T t.r3, sBox T t.r0⟩ ⟨rcon T (i / nk), 0, 0, 0⟩ := by
  rw [expansionTerm, if_pos h]
  rfl

theorem expansionTerm_of_mod_four (T : Tables) {nk i : Nat} (hnk : nk = 8) (h : i % nk = 4) (t : Column) :
    expansionTerm T nk i t = ⟨sBox T t.r0, sBox T t.r1, sBox T t.r2, sBox T t.r3⟩ := by
  rw [expansionTerm, if_neg (by omega), if_pos ⟨hnk, h⟩]
  rfl

theorem expansionTerm_otherwise (T : Tables) {nk i : Nat} (h₀ : i % nk ≠ 0) (h₄ : ¬ (nk = 8 ∧ i % nk = 4))
    (t : Column) : expansionTerm T nk i t = t := by
  rw [expansionTerm, if_neg h₀, if_neg h₄]

/-! ### Round keys -/

/-- Round key `r` is the words `4r` to `4r+3`, where there are that many (41_key_schedule.md R142). -/
theorem groupWords_getD {ws : List Column} {r : Nat} (h : 4 * r + 3 < ws.length) :
    (groupWords ws).getD r Block.zero =
      ⟨ws.getD (4 * r) Column.zero, ws.getD (4 * r + 1) Column.zero, ws.getD (4 * r + 2) Column.zero,
        ws.getD (4 * r + 3) Column.zero⟩ := by
  induction r generalizing ws with
  | zero =>
    match ws, h with
    | a :: b :: c :: d :: rest, _ => rfl
  | succ r ih =>
    match ws, h with
    | a :: b :: c :: d :: rest, h =>
      rw [groupWords, List.getD_cons_succ, ih (by simp only [List.length_cons] at h; omega)]
      rfl

theorem encSchedule_getD (T : Tables) {K : List Column} {keylen : Nat} (hK : keylen / 4 ≤ K.length) {r : Nat}
    (hr : r ≤ roundCount keylen) :
    (encSchedule T K keylen).keys.getD r Block.zero =
      ⟨(keyExpansion T K keylen).getD (4 * r) Column.zero, (keyExpansion T K keylen).getD (4 * r + 1) Column.zero,
        (keyExpansion T K keylen).getD (4 * r + 2) Column.zero,
        (keyExpansion T K keylen).getD (4 * r + 3) Column.zero⟩ :=
  groupWords_getD (by rw [keyExpansion_length T hK]; omega)

theorem decSchedule_getD (T : Tables) (K : List Column) {keylen r : Nat} (hr : r ≤ roundCount keylen) :
    (decSchedule T K keylen).keys.getD r Block.zero =
      decKey (roundCount keylen) (encSchedule T K keylen).keys r := by
  have listed : (List.range (roundCount keylen + 1))[r]? = some r := List.getElem?_range (by omega)
  simp [decSchedule, encSchedule, List.getD_eq_getElem?_getD, listed]

section

variable (T : Tables) (K : List Column) (keylen : Nat)

/-- The outer round keys of the two schedules change places (41_key_schedule.md R143). -/
theorem decSchedule_getD_zero :
    (decSchedule T K keylen).keys.getD 0 Block.zero =
      (encSchedule T K keylen).keys.getD (roundCount keylen) Block.zero := by
  rw [decSchedule_getD T K (Nat.zero_le _), decKey, if_pos rfl]

theorem decSchedule_getD_last :
    (decSchedule T K keylen).keys.getD (roundCount keylen) Block.zero =
      (encSchedule T K keylen).keys.getD 0 Block.zero := by
  rw [decSchedule_getD T K le_rfl, decKey, if_neg (by rw [roundCount]; omega), if_pos rfl]

/-- The inner round keys go through InvMixColumns, in reverse (41_key_schedule.md R143). -/
theorem decSchedule_getD_inner {r : Nat} (hlo : 0 < r) (hhi : r < roundCount keylen) :
    (decSchedule T K keylen).keys.getD r Block.zero =
      invMixColumns ((encSchedule T K keylen).keys.getD (roundCount keylen - r) Block.zero) := by
  rw [decSchedule_getD T K hhi.le, decKey, if_neg (by omega), if_neg (by omega)]

end

/-! ### SETKEY with a legal key length -/

theorem exec_setkeyEnc_of_keylenOk {keylen : Nat} (h : keylenOk keylen = true) (s : State) :
    exec (.setkeyEnc keylen) s =
      .next (finish .ok (loadContext .enc (encSchedule s.cfg.tables s.key.toList keylen) s)) := by
  simp only [exec, execSetkeyEnc, if_pos h]
  rfl

theorem exec_setkeyDec_of_keylenOk {keylen : Nat} (h : keylenOk keylen = true) (s : State) :
    exec (.setkeyDec keylen) s =
      .next (finish .ok (loadContext .dec (decSchedule s.cfg.tables s.key.toList keylen) s)) := by
  simp only [exec, execSetkeyDec, if_pos h]
  rfl

/-- A slot of the context that a schedule was loaded in. -/
theorem loadContext_slot {sched : Schedule} (h : Fits sched) (d : Dir) (s : State) {r : Nat} (hr : r ≤ sched.nr) :
    slot (loadContext d sched s).rk r = sched.keys.getD r Block.zero := by
  rw [loadContext_rk, slot_storeKeys h, if_pos hr]

end Sys2Proof.Proofs
end

section
/-!
PROOFS. The statements about the key schedule (41_key_schedule.md R140 to R149).
-/

namespace Sys2Proof.Proofs

open Sys2Proof.Machine Sys2Proof.Claims

/-- Settles O23: every word after the key's meets the recurrence of the loop, whose term has three cases. -/
theorem keyExpansionRecurrence : Obligations.KeyExpansionRecurrence := by
  unfold Obligations.KeyExpansionRecurrence
  intro T K keylen h w nk
  obtain ⟨hfour, hK⟩ := legal_wordCount h K
  refine ⟨keyExpansion_length T hK, fun i hi => keyExpansion_getD_key T hK hi, fun i hlo hhi => ?_⟩
  have word : w i = (w (i - nk)).xor (expansionTerm T nk i (w (i - 1))) :=
    keyExpansion_meetsRecurrence T hK (by omega) hlo hhi
  refine ⟨fun h₀ => ?_, fun h₈ h₄ => ?_, fun h₀ h₄ => ?_⟩
  · rw [word, expansionTerm_of_dvd T h₀]
  · rw [word, expansionTerm_of_mod_four T h₈ h₄]
  · rw [word, expansionTerm_otherwise T h₀ h₄]

/-- Settles O24: the round keys are groups of four words, of which the key's words are the first, and `decKey` has one
case for each outer round key and one for the rest. -/
theorem schedulesGroupAndReverse : Obligations.SchedulesGroupAndReverse := by
  unfold Obligations.SchedulesGroupAndReverse
  intro T K keylen h w nr ek dk
  obtain ⟨hfour, hK⟩ := legal_wordCount h K
  have hok : keylenOk keylen = true := (keylenOk_iff keylen).2 h
  obtain ⟨encLength, -⟩ := encSchedule_fits T K hok
  obtain ⟨decLength, -⟩ := decSchedule_fits T K hok
  have group : ∀ r, r ≤ nr → ek r = ⟨w (4 * r), w (4 * r + 1), w (4 * r + 2), w (4 * r + 3)⟩ :=
    fun r hr => encSchedule_getD T hK hr
  have key : ∀ i, i < keylen / 4 → w i = K.toList.getD i Column.zero := fun i hi => keyExpansion_getD_key T hK hi
  have group1 := group 1 (Nat.le_add_left 1 _)
  refine ⟨rfl, rfl, encLength, decLength, group, ?_, fun h24 => ?_, fun h32 => ?_, decSchedule_getD_zero T _ keylen,
    decSchedule_getD_last T _ keylen, fun i hlo hhi => ?_⟩
  · rw [group 0 (Nat.zero_le _), key _ (by omega), key _ (by omega), key _ (by omega), key _ (by omega)]
  · rw [group1]
    exact ⟨key 4 (by omega), key 5 (by omega)⟩
  · rw [group1]
    exact ⟨key 6 (by omega), key 7 (by omega)⟩
  · exact decSchedule_getD_inner T _ keylen hlo (by rw [roundCount]; omega)

/-- Settles O25: both contexts hold their schedules whole, and the schedules exchange their outer round keys. -/
theorem contextsOfOneKeyAgree : Obligations.ContextsOfOneKeyAgree := by
  unfold Obligations.ContextsOfOneKeyAgree
  intro s keylen h
  have hok : keylenOk keylen = true := (keylenOk_iff keylen).2 h
  have encFits := encSchedule_fits s.cfg.tables s.key hok
  have decFits := decSchedule_fits s.cfg.tables s.key hok
  refine ⟨_, _, exec_setkeyEnc_of_keylenOk hok s, exec_setkeyDec_of_keylenOk hok s, rfl, ?_, ?_⟩
  · rw [finish_rk, finish_rk, finish_nr, loadContext_nr_toNat encFits, loadContext_slot encFits _ _ le_rfl,
      loadContext_slot decFits _ _ (Nat.zero_le _)]
    exact decSchedule_getD_zero _ _ _
  · rw [finish_rk, finish_rk, finish_nr, loadContext_nr_toNat decFits, loadContext_slot decFits _ _ le_rfl,
      loadContext_slot encFits _ _ (Nat.zero_le _)]
    exact decSchedule_getD_last _ _ _

end Sys2Proof.Proofs
end

section
/-!
SUPPORT. The cipher functions (42_block_transform.md R160, R161): how each step of `invCipher`, under the keys of
41_key_schedule.md R143, takes back a step of `cipher`.
-/

namespace Sys2Proof.Proofs

open Sys2Proof.Machine

/-! ### Single steps -/

/-- Adding a round key twice changes nothing (40_primitives.md R127). -/
@[simp] theorem addRoundKey_addRoundKey (b k : Block) : addRoundKey (addRoundKey b k) k = b := by
  simp [addRoundKey, Block.xor, Column.xor]

/-- InvMixColumns goes through AddRoundKey to the state and to the key (40_primitives.md R126). -/
theorem invMixColumns_addRoundKey (b k : Block) :
    invMixColumns (addRoundKey b k) = addRoundKey (invMixColumns b) (invMixColumns k) :=
  invMixColumns_xor b k

/-- SubBytes and ShiftRows, with which the last round of encryption begins (42_block_transform.md R160). -/
def shiftedBytes (b : Block) : Block := shiftRows (subBytes Tables.standard b)

/-- The steps of a decryption round before its column mixing undo `shiftedBytes`, though they come in its order. -/
theorem invShiftRows_invSubBytes_shiftedBytes (b : Block) :
    invShiftRows (invSubBytes Tables.standard (shiftedBytes b)) = b := by
  rw [shiftedBytes, invSubBytes, mapBlock_shiftRows, invShiftRows_shiftRows]
  exact invSubBytes_subBytes b

/-- One decryption round takes `shiftedBytes` back over one encryption round, with the round's key mixed inversely. -/
theorem invCipherRound_shiftedBytes_cipherRound (b k : Block) :
    invCipherRound Tables.standard (shiftedBytes (cipherRound Tables.standard b k)) (invMixColumns k) =
      shiftedBytes b := by
  rw [invCipherRound, invShiftRows_invSubBytes_shiftedBytes, cipherRound, invMixColumns_addRoundKey,
    addRoundKey_addRoundKey, invMixColumns_mixColumns, shiftedBytes]

/-! ### The rounds in a row -/

/-- The decryption rounds, the last encryption round's first, take `shiftedBytes` back over all encryption rounds. -/
theorem foldr_invCipherRound_shiftedBytes_foldl_cipherRound (key : Nat → Block) (rounds : List Nat) (b : Block) :
    rounds.foldr (fun r x => invCipherRound Tables.standard x (invMixColumns (key r)))
      (shiftedBytes (rounds.foldl (fun x r => cipherRound Tables.standard x (key r)) b)) = shiftedBytes b := by
  induction rounds generalizing b with
  | nil => rfl
  | cons r rounds ih => rw [List.foldl_cons, List.foldr_cons, ih, invCipherRound_shiftedBytes_cipherRound]

/-- The inner rounds in ascending order are the mirror images of the inner rounds in descending order. -/
theorem range'_eq_map_sub_reverse (nr : Nat) :
    List.range' 1 (nr - 1) = (List.range' 1 (nr - 1)).reverse.map (nr - ·) := by
  refine List.ext_getElem (by simp) fun i hi _ => ?_
  rw [List.length_range'] at hi
  simp only [List.getElem_map, List.getElem_reverse, List.getElem_range', List.length_range']
  omega

/-! ### The whole cipher (42_block_transform.md R162) -/

section

variable {nr : Nat} {ek dk : List Block} (hdk : ∀ r, r ≤ nr → dk.getD r Block.zero = decKey nr ek r)
include hdk

/-- The inner rounds of decryption are those of encryption in descending order, each key through InvMixColumns. -/
theorem foldl_invCipherRound_of_decKey (T : Tables) (b : Block) :
    (List.range' 1 (nr - 1)).foldl (fun x r => invCipherRound T x (dk.getD r Block.zero)) b =
      (List.range' 1 (nr - 1)).foldr
        (fun r x => invCipherRound T x (invMixColumns (ek.getD r Block.zero))) b := by
  rw [range'_eq_map_sub_reverse, List.foldl_map, List.foldl_reverse, ← range'_eq_map_sub_reverse]
  refine List.foldr_ext _ _ _ fun r hr x => ?_
  rw [List.mem_range'_1] at hr
  rw [hdk _ (Nat.sub_le nr r), decKey, if_neg (by omega), if_neg (by omega), Nat.sub_sub_self (by omega)]

/-- `invCipher` undoes `cipher` when its round keys are those of R143, whatever the encryption keys are. -/
theorem invCipher_cipher_of_decKey (hnr : 0 < nr) (b : Block) :
    invCipher Tables.standard nr dk (cipher Tables.standard nr ek b) = b := by
  have first : dk.getD 0 Block.zero = ek.getD nr Block.zero := by rw [hdk 0 (Nat.zero_le nr), decKey, if_pos rfl]
  have last : dk.getD nr Block.zero = ek.getD 0 Block.zero := by
    rw [hdk nr le_rfl, decKey, if_neg hnr.ne', if_pos rfl]
  simp only [invCipher, cipher, first, last, addRoundKey_addRoundKey, foldl_invCipherRound_of_decKey hdk]
  rw [← shiftedBytes, foldr_invCipherRound_shiftedBytes_foldl_cipherRound (fun r => ek.getD r Block.zero),
    invShiftRows_invSubBytes_shiftedBytes, addRoundKey_addRoundKey]

end

/-- Decryption under one schedule of a key undoes encryption under the other (42_block_transform.md R162). -/
theorem invCipher_decSchedule_cipher_encSchedule (K : List Column) (keylen : Nat) (b : Block) :
    invCipher Tables.standard (roundCount keylen) (decSchedule Tables.standard K keylen).keys
      (cipher Tables.standard (roundCount keylen) (encSchedule Tables.standard K keylen).keys b) = b :=
  invCipher_cipher_of_decKey (fun _ hr => decSchedule_getD Tables.standard K hr) (Nat.succ_pos _) b

end Sys2Proof.Proofs
end

section
/-!
PROOFS. The statement about the block transform (42_block_transform.md R162).
-/

namespace Sys2Proof.Proofs

open Sys2Proof.Machine Sys2Proof.Claims

/-- Settles O58: each decryption round takes back one encryption round, from the last to the first, and the outer round
keys change places. -/
theorem invCipherInvertsCipher : Obligations.InvCipherInvertsCipher := by
  unfold Obligations.InvCipherInvertsCipher
  exact fun K keylen b _ => invCipher_decSchedule_cipher_encSchedule K.toList keylen b

end Sys2Proof.Proofs
end

section
/-!
SUPPORT. The loop of a CBC command (43_cbc.md R181, R182), of either direction, as a run over the bytes of `DBUF` and
`IV`; where such a run writes; and how `CBC_DEC` takes `CBC_ENC` back.
-/

namespace Sys2Proof.Proofs

open Sys2Proof.Machine Sys2Proof.Claims

/-! ### One direction as a parameter -/

/-- The CBC command that needs a context of direction `d`. -/
def cbcCommand : Dir → Instr
  | .enc => .cbcEnc
  | .dec => .cbcDec

/-- Pass `j` of the loop of `cbcCommand d`. -/
def cbcUnit : Dir → Nat → State → State
  | .enc => cbcEncUnit
  | .dec => cbcDecUnit

/-- The block function of direction `d` under the loaded context. -/
def blockFunction (d : Dir) (s : State) : Block → Block :=
  match d with
  | .enc => encryptBlock s
  | .dec => decryptBlock s

/-- The block at `a` of a plain memory. -/
def blockAt (m : Nat → Byte) (a : Nat) : Block := blockOfBytes fun i => m (a + i)

/-- What a CBC loop works on: the bytes of `DBUF` and the running IV. -/
def cbcView (s : State) : (Nat → Byte) × Block := (dbufByte s, s.iv)

theorem memReadBlock_eq_blockAt (s : State) (a : Nat) : memReadBlock s a = blockAt (cbcView s).1 a := rfl

/-- The output block of direction `d` for the input block `x` under the running IV `iv`. -/
def cbcBlock (d : Dir) (F : Block → Block) (iv x : Block) : Block :=
  match d with
  | .enc => cbcEncBlock F iv x
  | .dec => cbcDecBlock F iv x

/-- Which of a pass's input block `x` and output block `y` is ciphertext. -/
def ciphertextOf (d : Dir) (x y : Block) : Block :=
  match d with
  | .enc => y
  | .dec => x

/-- One pass over a plain memory: the output block for the block at `src` is written at `dst`, and the ciphertext block
becomes the running IV. -/
def cbcPass (d : Dir) (F : Block → Block) (src dst : Nat) (r : (Nat → Byte) × Block) : (Nat → Byte) × Block :=
  let x := blockAt r.1 src
  let y := cbcBlock d F r.2 x
  (overlay r.1 dst y, ciphertextOf d x y)

/-- The first `n` passes over a plain memory. -/
def cbcRun (d : Dir) (F : Block → Block) (src dst : Nat) (r : (Nat → Byte) × Block) (n : Nat) :
    (Nat → Byte) × Block :=
  match d with
  | .enc => cbcEncRun F src dst r.1 r.2 n
  | .dec => cbcDecRun F src dst r.1 r.2 n

@[simp] theorem cbcRun_zero (d : Dir) (F : Block → Block) (src dst : Nat) (r : (Nat → Byte) × Block) :
    cbcRun d F src dst r 0 = r := by
  cases d <;> rfl

theorem cbcRun_succ (d : Dir) (F : Block → Block) (src dst : Nat) (r : (Nat → Byte) × Block) (n : Nat) :
    cbcRun d F src dst r (n + 1) = cbcPass d F (src + 16 * n) (dst + 16 * n) (cbcRun d F src dst r n) := by
  cases d <;> rfl

/-! ### The commands as runs -/

theorem blockFunction_congr (d : Dir) {s t : State} (h : SameContext s t) (hcfg : t.cfg = s.cfg) :
    blockFunction d t = blockFunction d s := by
  obtain ⟨-, -, hnr, hrk⟩ := h
  funext b
  cases d with
  | enc => simp only [blockFunction, encryptBlock, hnr, hrk, hcfg]
  | dec => simp only [blockFunction, decryptBlock, hnr, hrk, hcfg]

theorem hasContext_of_sameContext {d : Dir} {s t : State} (h : SameContext s t) (hs : HasContext s d) :
    HasContext t d := by
  obtain ⟨hvalid, hdir, -, -⟩ := h
  exact hs.imp hvalid.trans hdir.trans

theorem cbcUnit_frame (d : Dir) (j : Nat) (s : State) : StreamFrame s (cbcUnit d j s) := by
  cases d with
  | enc => exact cbcEncUnit_frame j s
  | dec => exact cbcDecUnit_frame j s

/-- The two states hold the same parameters, key register, `LEN`, `SRC` and `DST`. -/
def SameOperands (s t : State) : Prop :=
  t.cfg = s.cfg ∧ t.key = s.key ∧ t.len = s.len ∧ t.src = s.src ∧ t.dst = s.dst

theorem sameOperands_of_streamFrame {s t : State} (h : StreamFrame s t) : SameOperands s t := by
  unfold StreamFrame at h
  rw [h]
  exact ⟨rfl, rfl, rfl, rfl, rfl⟩

theorem cbcView_congr {s t : State} (hd : t.dbuf = s.dbuf) (he : t.epoch = s.epoch) (hi : t.iv = s.iv) :
    cbcView t = cbcView s := by
  rw [cbcView, cbcView, hi, funext (dbufByte_congr hd he)]

theorem cbcView_cbcUnit (d : Dir) (j : Nat) (s : State) :
    cbcView (cbcUnit d j s) =
      cbcPass d (blockFunction d s) (s.src.toNat + 16 * j) (s.dst.toNat + 16 * j) (cbcView s) := by
  cases d with
  | enc =>
    have bytes : dbufByte (cbcEncUnit j s) = overlay (dbufByte s) (dstAddr s (16 * j)) (cbcEncUnit j s).iv :=
      funext (cbcEncUnit_dbufByte j s)
    rw [cbcView, cbcUnit, bytes]
    rfl
  | dec =>
    have bytes : dbufByte (cbcDecUnit j s) = overlay (dbufByte s) (dstAddr s (16 * j))
        ((decryptBlock s (memReadBlock s (srcAddr s (16 * j)))).xor s.iv) :=
      funext (cbcDecUnit_dbufByte j s)
    rw [cbcView, cbcUnit, bytes]
    rfl

/-- No pass changes the context or the operands, so the loop is a run with those it starts with. -/
theorem cbcView_forUpTo_cbcUnit (d : Dir) (n : Nat) (s : State) :
    cbcView (forUpTo (cbcUnit d) n s) =
      cbcRun d (blockFunction d s) s.src.toNat s.dst.toNat (cbcView s) n := by
  induction n with
  | zero => rw [cbcRun_zero, forUpTo]
  | succ n ih =>
    have frame : StreamFrame s (forUpTo (cbcUnit d) n s) := forUpTo_frame (cbcUnit_frame d) n s
    obtain ⟨hcfg, -, -, hsrc, hdst⟩ := sameOperands_of_streamFrame frame
    rw [forUpTo, cbcView_cbcUnit, blockFunction_congr d (sameContext_of_streamFrame frame) hcfg, hsrc, hdst, ih,
      cbcRun_succ]

/-- The state with other operands. -/
def withOperands (len src dst : Word) (s : State) : State := { s with len := len, src := src, dst := dst }

@[simp] theorem blockFunction_withOperands (d : Dir) (len src dst : Word) (s : State) :
    blockFunction d (withOperands len src dst s) = blockFunction d s :=
  blockFunction_congr d ⟨rfl, rfl, rfl, rfl⟩ rfl

@[simp] theorem blockFunction_finish (d : Dir) (code : ErrCode) (s : State) :
    blockFunction d (finish code s) = blockFunction d s :=
  blockFunction_congr d ⟨rfl, rfl, rfl, rfl⟩ rfl

@[simp] theorem cbcView_withOperands (len src dst : Word) (s : State) :
    cbcView (withOperands len src dst s) = cbcView s := cbcView_congr rfl rfl rfl

@[simp] theorem cbcView_finish (code : ErrCode) (s : State) : cbcView (finish code s) = cbcView s :=
  cbcView_congr rfl rfl rfl

/-- A CBC command that passes its checks is a run of `LEN / 16` passes (43_cbc.md R180 to R182). -/
theorem exec_cbcCommand {d : Dir} {s : State} (hc : HasContext s d) (len src dst : Word) (n : Nat)
    (hlen : len.toNat = 16 * n)
    (hr : src.toNat + 16 * n ≤ s.cfg.dbufSize ∧ dst.toNat + 16 * n ≤ s.cfg.dbufSize) :
    ∃ t, exec (cbcCommand d) (withOperands len src dst s) = .next (finish .ok t) ∧
      SameContext s t ∧ SameOperands (withOperands len src dst s) t ∧
      cbcView t = cbcRun d (blockFunction d s) src.toNat dst.toNat (cbcView s) n := by
  have checks : cbcChecks d (withOperands len src dst s) = none :=
    cbcChecks_none.2 ⟨hc, (congrArg (· % 16) hlen).trans (Nat.mul_mod_right 16 n), hlen ▸ hr⟩
  have passes : (withOperands len src dst s).len.toNat / 16 = n :=
    (congrArg (· / 16) hlen).trans (Nat.mul_div_cancel_left n (by decide))
  have frame := forUpTo_frame (cbcUnit_frame d) n (withOperands len src dst s)
  have view := cbcView_forUpTo_cbcUnit d n (withOperands len src dst s)
  rw [blockFunction_withOperands, cbcView_withOperands] at view
  refine ⟨_, ?_, sameContext_of_streamFrame (s := withOperands len src dst s) frame,
    sameOperands_of_streamFrame frame, view⟩
  cases d with
  | enc => simp only [cbcCommand, exec, execCbcEnc, checks, runChecked_none, cbcUnit, passes]
  | dec => simp only [cbcCommand, exec, execCbcDec, checks, runChecked_none, cbcUnit, passes]

/-- A CBC command of no byte leaves `IV`, and any other makes a last pass `k`. -/
theorem exec_cbcCommand_lastPass {d : Dir} {s : State} (hc : HasContext s d) (hlen : s.len.toNat % 16 = 0)
    (hr : InRange s) :
    ∃ t, exec (cbcCommand d) s = .next (finish .ok t) ∧ (s.len = 0 → t.iv = s.iv) ∧
      (16 ≤ s.len.toNat → ∃ k, s.len.toNat = 16 * k + 16 ∧
        cbcView t = cbcRun d (blockFunction d s) s.src.toNat s.dst.toNat (cbcView s) (k + 1)) := by
  unfold InRange at hr
  obtain ⟨n, hn⟩ : ∃ n, s.len.toNat = 16 * n := Nat.dvd_of_mod_eq_zero hlen
  rw [hn] at hr
  obtain ⟨t, ht, -, -, view⟩ := exec_cbcCommand hc s.len s.src s.dst n hn hr
  refine ⟨t, ht, fun empty => ?_, fun nonempty => ?_⟩
  · obtain rfl : n = 0 := by bv_omega
    rw [cbcRun_zero] at view
    exact congrArg Prod.snd view
  · obtain ⟨k, rfl⟩ : ∃ k, n = k + 1 := ⟨n - 1, by omega⟩
    exact ⟨k, hn, view⟩

/-! ### Where a run writes -/

theorem overlay_of_outside {m : Nat → Byte} {a x : Nat} {b : Block} (h : x < a ∨ a + 16 ≤ x) :
    overlay m a b x = m x := if_neg (by omega)

theorem overlay_of_inside (m : Nat → Byte) (a : Nat) (b : Block) {i : Nat} (h : i < 16) :
    overlay m a b (a + i) = blockByte b i := by
  rw [overlay, if_pos (by omega), Nat.add_sub_cancel_left]

theorem blockAt_congr {m m' : Nat → Byte} {a : Nat} (h : ∀ i, i < 16 → m' (a + i) = m (a + i)) :
    blockAt m' a = blockAt m a :=
  block_ext fun i hi => by rw [blockAt, blockAt, blockByte_blockOfBytes _ i hi, blockByte_blockOfBytes _ i hi, h i hi]

theorem blockAt_overlay (m : Nat → Byte) (a : Nat) (b : Block) : blockAt (overlay m a b) a = b :=
  block_ext fun i hi => by rw [blockAt, blockByte_blockOfBytes _ i hi, overlay_of_inside m a b hi]

theorem cbcPass_frame (d : Dir) (F : Block → Block) (src : Nat) {dst : Nat} (r : (Nat → Byte) × Block) {x : Nat}
    (h : x < dst ∨ dst + 16 ≤ x) : (cbcPass d F src dst r).1 x = r.1 x := by
  simp only [cbcPass, overlay_of_outside h]

@[simp] theorem cbcPass_iv_enc (E : Block → Block) (src dst : Nat) (r : (Nat → Byte) × Block) :
    (cbcPass .enc E src dst r).2 = cbcEncBlock E r.2 (blockAt r.1 src) := rfl

@[simp] theorem cbcPass_iv_dec (D : Block → Block) (src dst : Nat) (r : (Nat → Byte) × Block) :
    (cbcPass .dec D src dst r).2 = blockAt r.1 src := rfl

theorem cbcPass_output (d : Dir) (F : Block → Block) (src dst : Nat) (r : (Nat → Byte) × Block) {i : Nat}
    (h : i < 16) : (cbcPass d F src dst r).1 (dst + i) = blockByte (cbcBlock d F r.2 (blockAt r.1 src)) i := by
  simp only [cbcPass, overlay_of_inside _ _ _ h]

/-- The passes from `k` to `n` write the output blocks `k` to `n - 1` and nothing else. -/
theorem cbcRun_frame (d : Dir) (F : Block → Block) (src dst : Nat) (r : (Nat → Byte) × Block) {k n x : Nat}
    (hk : k ≤ n) (h : x < dst + 16 * k ∨ dst + 16 * n ≤ x) :
    (cbcRun d F src dst r n).1 x = (cbcRun d F src dst r k).1 x := by
  induction n, hk using Nat.le_induction with
  | base => rfl
  | succ n hk ih => rw [cbcRun_succ, cbcPass_frame d F _ _ (by omega), ih (by omega)]

/-- A run in two parts, the second from what the first left (43_cbc.md R183). -/
theorem cbcRun_add (d : Dir) (F : Block → Block) (src dst : Nat) (r : (Nat → Byte) × Block) (a b : Nat) :
    cbcRun d F src dst r (a + b) =
      cbcRun d F (src + 16 * a) (dst + 16 * a) (cbcRun d F src dst r a) b := by
  induction b with
  | zero => simp
  | succ b ih => rw [← Nat.add_assoc, cbcRun_succ, cbcRun_succ, ih, Nat.mul_add, Nat.add_assoc, Nat.add_assoc]

/-! ### The ciphertext (43_cbc.md R185) -/

/-- The running IV of encryption is the block that its last pass wrote, and no later pass writes there. -/
theorem blockAt_cbcRun_enc (E : Block → Block) (src dst : Nat) (r : (Nat → Byte) × Block) {k n : Nat} (hk : k < n) :
    blockAt (cbcRun .enc E src dst r n).1 (dst + 16 * k) = (cbcRun .enc E src dst r (k + 1)).2 :=
  calc blockAt (cbcRun .enc E src dst r n).1 (dst + 16 * k)
    _ = blockAt (cbcRun .enc E src dst r (k + 1)).1 (dst + 16 * k) :=
      blockAt_congr fun _ _ => cbcRun_frame _ E src dst r hk (by omega)
    _ = (cbcRun .enc E src dst r (k + 1)).2 := blockAt_overlay _ _ _

/-! ### Decryption of what encryption wrote (43_cbc.md R184) -/

/-- With buffers that are the same or apart, pass `k` reads a block that the earlier passes did not write. -/
theorem blockAt_cbcRun_src (d : Dir) (F : Block → Block) {src dst k n : Nat} (r : (Nat → Byte) × Block) (hk : k < n)
    (h : src = dst ∨ src + 16 * n ≤ dst ∨ dst + 16 * n ≤ src) :
    blockAt (cbcRun d F src dst r k).1 (src + 16 * k) = blockAt r.1 (src + 16 * k) :=
  blockAt_congr fun _ _ => by rw [cbcRun_frame d F src dst r (Nat.zero_le k) (by omega), cbcRun_zero]

theorem cbcDecBlock_cbcEncBlock {E D : Block → Block} (hD : ∀ b, D (E b) = b) (iv p : Block) :
    cbcDecBlock D iv (cbcEncBlock E iv p) = p := by
  rw [cbcDecBlock, cbcEncBlock, hD]
  exact addRoundKey_addRoundKey p iv

/-- Decryption in place over the output of encryption, from the same IV, has after each pass the running IV that
encryption had there, and the plaintext in the blocks done. -/
theorem cbcRun_dec_cbcRun_enc {E D : Block → Block} (hD : ∀ b, D (E b) = b) {src dst n : Nat}
    (h : src = dst ∨ src + 16 * n ≤ dst ∨ dst + 16 * n ≤ src) (m : Nat → Byte) (iv : Block) {k : Nat} (hk : k ≤ n) :
    let c := (cbcRun .enc E src dst (m, iv) n).1
    let p := cbcRun .dec D dst dst (c, iv) k
    p.2 = (cbcRun .enc E src dst (m, iv) k).2 ∧ ∀ i, i < 16 * k → p.1 (dst + i) = m (src + i) := by
  intro c
  induction k with
  | zero => simp
  | succ k ih =>
    obtain ⟨ivs, done⟩ := ih (by omega)
    have plain : blockAt (cbcRun .enc E src dst (m, iv) k).1 (src + 16 * k) = blockAt m (src + 16 * k) :=
      blockAt_cbcRun_src .enc E (m, iv) hk h
    have cipher : blockAt (cbcRun .dec D dst dst (c, iv) k).1 (dst + 16 * k) =
        (cbcRun .enc E src dst (m, iv) (k + 1)).2 :=
      (blockAt_cbcRun_src .dec D (c, iv) hk (.inl rfl)).trans (blockAt_cbcRun_enc E src dst (m, iv) hk)
    have chained : (cbcRun .enc E src dst (m, iv) (k + 1)).2 =
        cbcEncBlock E (cbcRun .enc E src dst (m, iv) k).2 (blockAt m (src + 16 * k)) := by
      rw [cbcRun_succ, cbcPass_iv_enc, plain]
    refine ⟨by rw [cbcRun_succ, cbcPass_iv_dec, cipher], fun i hi => ?_⟩
    obtain before | later := Nat.lt_or_ge i (16 * k)
    · rw [cbcRun_succ, cbcPass_frame _ D _ _ (by omega), done i before]
    · obtain ⟨j, rfl⟩ := Nat.exists_eq_add_of_le later
      have hj : j < 16 := by omega
      rw [cbcRun_succ, ← Nat.add_assoc, cbcPass_output _ _ _ _ _ hj, cbcBlock, cipher, ivs, chained,
        cbcDecBlock_cbcEncBlock hD, blockAt, blockByte_blockOfBytes _ j hj, Nat.add_assoc]

/-! ### The block functions that SETKEY loads -/

/-- `SETKEY_ENC` or `SETKEY_DEC`, by the direction it schedules for. -/
def setkeyCommand : Dir → Nat → Instr
  | .enc => .setkeyEnc
  | .dec => .setkeyDec

/-- The block function of direction `d` under a key. -/
def keyedFunction : Dir → Tables → List Column → Nat → Block → Block
  | .enc => scratchEnc
  | .dec => scratchDec

/-- `SETKEY_*` with a legal key length loads a context that computes the block function of the key, and leaves what a
CBC command works on (41_key_schedule.md R144, R145). -/
theorem exec_setkeyCommand (d : Dir) {keylen : Nat} (h : keylenOk keylen = true) {s : State} {T : Tables}
    {K : Vector Column 8} (hT : s.cfg.tables = T) (hK : s.key = K) :
    ∃ t, exec (setkeyCommand d keylen) s = .next t ∧ HasContext t d ∧
      blockFunction d t = keyedFunction d T K.toList keylen ∧ SameOperands s t ∧ cbcView t = cbcView s := by
  subst hT hK
  cases d with
  | enc =>
    have fits := encSchedule_fits s.cfg.tables s.key h
    refine ⟨_, exec_setkeyEnc_of_keylenOk h s, ⟨rfl, rfl⟩, funext fun b => ?_, ⟨rfl, rfl, rfl, rfl, rfl⟩,
      cbcView_congr rfl rfl rfl⟩
    rw [blockFunction, encryptBlock, finish_nr, finish_rk, finish_cfg, loadContext_nr_toNat fits, loadContext_cfg]
    exact cipher_congr _ (fun _ hr => loadContext_slot fits .enc s hr) b
  | dec =>
    have fits := decSchedule_fits s.cfg.tables s.key h
    refine ⟨_, exec_setkeyDec_of_keylenOk h s, ⟨rfl, rfl⟩, funext fun b => ?_, ⟨rfl, rfl, rfl, rfl, rfl⟩,
      cbcView_congr rfl rfl rfl⟩
    rw [blockFunction, decryptBlock, finish_nr, finish_rk, finish_cfg, loadContext_nr_toNat fits, loadContext_cfg]
    exact invCipher_congr _ (fun _ hr => loadContext_slot fits .dec s hr) b

end Sys2Proof.Proofs
end

section
/-!
PROOFS. The statements about CBC mode (43_cbc.md R183 to R185).
-/

namespace Sys2Proof.Proofs

open Sys2Proof.Machine Sys2Proof.Claims

/-- Settles O33: the running IV after the last pass is the block it wrote when encrypting and the block it read when
decrypting. -/
theorem cbcIvIsLastCiphertext : Obligations.CbcIvIsLastCiphertext := by
  unfold Obligations.CbcIvIsLastCiphertext
  refine ⟨fun s hc hlen hr => ?_, fun s hc hlen hr => ?_⟩
  · obtain ⟨t, ht, empty, lastPass⟩ := exec_cbcCommand_lastPass hc hlen hr
    refine ⟨_, ht, empty, fun nonempty => ?_⟩
    obtain ⟨k, hk, view⟩ := lastPass nonempty
    have written := blockAt_cbcRun_enc (blockFunction .enc s) s.src.toNat s.dst.toNat (cbcView s) (Nat.lt_succ_self k)
    rw [← view] at written
    rw [hk, ← Nat.add_assoc, Nat.add_sub_cancel, memReadBlock_eq_blockAt, cbcView_finish, written]
    rfl
  · obtain ⟨t, ht, empty, lastPass⟩ := exec_cbcCommand_lastPass hc hlen hr
    refine ⟨_, ht, empty, fun nonempty => ?_⟩
    obtain ⟨k, hk, view⟩ := lastPass nonempty
    unfold InRange at hr
    obtain ⟨u, hu, -, -, earlier⟩ :=
      exec_cbcCommand hc (s.len - 16) s.src s.dst k (by bv_omega) (by omega)
    refine ⟨_, hu, ?_⟩
    have read : t.iv = blockAt (cbcView u).1 (s.src.toNat + 16 * k) := by
      rw [cbcRun_succ, ← earlier] at view
      exact (congrArg Prod.snd view).trans (cbcPass_iv_dec _ _ _ _)
    rw [hk, ← Nat.add_assoc, Nat.add_sub_cancel, memReadBlock_eq_blockAt, cbcView_finish, finish_iv, read]

/-- An operand moved on by `k` bytes, when the sum does not wrap around. -/
theorem toNat_add_ofNat {w : Word} {k : Nat} (h : w.toNat + k < 2 ^ 32) :
    (w + BitVec.ofNat 32 k).toNat = w.toNat + k := by
  rw [BitVec.toNat_add, BitVec.toNat_ofNat]
  omega

/-- Settles O34: the second command's run goes on from the bytes and the IV that the first left. -/
theorem cbcContinuation : Obligations.CbcContinuation := by
  unfold Obligations.CbcContinuation
  intro i d s a b hi hlegal hc ha hb hsrc hdst
  obtain rfl : i = cbcCommand d := by obtain ⟨rfl, rfl⟩ | ⟨rfl, rfl⟩ := hi <;> rfl
  have hsize : s.cfg.dbufSize ≤ 4096 := by
    simp only [Config.legal, Bool.and_eq_true, decide_eq_true_eq] at hlegal
    exact hlegal.2
  obtain ⟨m, rfl⟩ : ∃ m, a = 16 * m := Nat.dvd_of_mod_eq_zero ha
  obtain ⟨n, rfl⟩ : ∃ n, b = 16 * n := Nat.dvd_of_mod_eq_zero hb
  have whole : (BitVec.ofNat 32 (16 * m + 16 * n)).toNat = 16 * (m + n) := by rw [BitVec.toNat_ofNat]; omega
  have part : ∀ k, k ≤ m + n → (BitVec.ofNat 32 (16 * k)).toNat = 16 * k := by
    intro k hk
    rw [BitVec.toNat_ofNat]
    omega
  have srcAfter : (s.src + BitVec.ofNat 32 (16 * m)).toNat = s.src.toNat + 16 * m := toNat_add_ofNat (by omega)
  have dstAfter : (s.dst + BitVec.ofNat 32 (16 * m)).toNat = s.dst.toNat + 16 * m := toNat_add_ofNat (by omega)
  obtain ⟨t, ht, -, -, one⟩ := exec_cbcCommand hc _ s.src s.dst (m + n) whole (by omega)
  obtain ⟨u, hu, context, ⟨hcfg, -⟩, first⟩ := exec_cbcCommand hc _ s.src s.dst m (part m (by omega)) (by omega)
  replace hcfg : u.cfg = s.cfg := hcfg
  obtain ⟨v, hv, -, -, second⟩ := exec_cbcCommand (s := finish .ok u) (hasContext_of_sameContext context hc) _
    (s.src + BitVec.ofNat 32 (16 * m)) (s.dst + BitVec.ofNat 32 (16 * m)) n (part n (by omega))
    (by rw [srcAfter, dstAfter, finish_cfg, hcfg]; omega)
  have same : cbcView v = cbcView t := by
    rw [second, one, cbcRun_add, ← first, srcAfter, dstAfter, blockFunction_finish, cbcView_finish,
      blockFunction_congr d context hcfg]
  exact ⟨_, _, _, ht, hu, hv, rfl, congrArg Prod.snd same, congrFun (congrArg Prod.fst same)⟩

/-- Settles O59: both key commands load the schedules of one key, and decryption pass by pass takes encryption back. -/
theorem cbcRoundTrip : Obligations.CbcRoundTrip := by
  unfold Obligations.CbcRoundTrip InRange InPlaceOrApart
  intro s keylen hT hk hlen hr hplace
  have hok : keylenOk keylen = true := (keylenOk_iff keylen).2 hk
  obtain ⟨n, hn⟩ : ∃ n, s.len.toNat = 16 * n := Nat.dvd_of_mod_eq_zero hlen
  rw [hn] at hr hplace ⊢
  have start := hplace.imp_left (congrArg BitVec.toNat)
  obtain ⟨t, ht, encContext, encFunction, ⟨tcfg, tkey, tlen, tsrc, tdst⟩, tview⟩ := exec_setkeyCommand .enc hok hT rfl
  obtain ⟨u, hu, -, ⟨ucfg, ukey, ulen, -, udst⟩, encrypted⟩ := exec_cbcCommand encContext t.len t.src t.dst n
    (by rw [tlen, hn]) (by rwa [tsrc, tdst, tcfg])
  rw [encFunction, tsrc, tdst, tview] at encrypted
  obtain ⟨v, hv, decContext, decFunction, ⟨vcfg, -, vlen, vsrc, vdst⟩, vview⟩ := exec_setkeyCommand .dec hok
    (s := { finish .ok u with iv := s.iv, src := s.dst }) ((congrArg Config.tables (ucfg.trans tcfg)).trans hT)
    (ukey.trans tkey)
  replace vcfg : v.cfg = s.cfg := vcfg.trans (ucfg.trans tcfg)
  replace vlen : v.len = s.len := vlen.trans (ulen.trans tlen)
  replace vdst : v.dst = s.dst := vdst.trans (udst.trans tdst)
  replace vview : cbcView v = ((cbcView u).1, s.iv) := vview
  obtain ⟨x, hx, -, -, decrypted⟩ := exec_cbcCommand decContext v.len v.src v.dst n
    (by rw [vlen, hn]) (by rw [vsrc, vdst, vcfg]; exact ⟨hr.2, hr.2⟩)
  rw [decFunction, vsrc, vdst, vview, encrypted] at decrypted
  obtain ⟨-, plain⟩ := cbcRun_dec_cbcRun_enc
    (invCipher_decSchedule_cipher_encSchedule s.key.toList keylen) start (dbufByte s) s.iv le_rfl
  refine ⟨_, _, _, _, ht, hu, hv, hx, rfl, rfl, fun i hi => ?_⟩
  exact (congrFun (congrArg Prod.fst decrypted) _).trans (plain i hi)

end Sys2Proof.Proofs
end

section
/-!
SUPPORT. The loop of a CFB128 command (44_cfb128.md R198, R199), whichever byte it feeds back, as a run over the bytes
of `DBUF`, `IV` and `OFFSET`; where such a run writes; and how `CFB_DEC` takes `CFB_ENC` back.
-/

namespace Sys2Proof.Proofs

open Sys2Proof.Machine Sys2Proof.Claims

/-! ### The two commands as one -/

/-- The CFB128 command that feeds back its output byte (`true`) or its input byte (`false`). -/
def cfbCommand : Bool → Instr
  | true => .cfbEnc
  | false => .cfbDec

/-- Pass `i` of the loop of `cfbCommand enc`. -/
def cfbByte : Bool → Nat → State → State
  | true => cfbEncByte
  | false => cfbDecByte

/-- What a CFB128 loop works on: the bytes of `DBUF`, `IV` and `OFFSET`. -/
def cfbView (s : State) : CfbRun := { mem := dbufByte s, iv := s.iv, offset := s.offset.toNat }

/-- The keystream block of a pass: `IV`, through the cipher where the offset is 0 (44_cfb128.md R197). -/
def keystreamBlock (E : Block → Block) (r : CfbRun) : Block := if r.offset = 0 then E r.iv else r.iv

/-- The byte that a pass reading at `src` writes. -/
def cfbOutput (E : Block → Block) (src : Nat) (r : CfbRun) : Byte :=
  r.mem src ^^^ blockByte (keystreamBlock E r) r.offset

/-- One pass over a plain memory, from the byte at `src` to the byte at `dst`. -/
def cfbPass (enc : Bool) (E : Block → Block) (src dst : Nat) (r : CfbRun) : CfbRun where
  mem a := if a = dst then cfbOutput E src r else r.mem a
  iv := setBlockByte (keystreamBlock E r) r.offset (if enc then cfbOutput E src r else r.mem src)
  offset := (r.offset + 1) % 16

/-- The first `n` passes over a plain memory, from `r`. -/
def cfbRunFrom (enc : Bool) (E : Block → Block) (src dst : Nat) (r : CfbRun) (n : Nat) : CfbRun :=
  cfbRun enc E src dst r.mem r.iv r.offset n

@[simp] theorem cfbRunFrom_zero (enc : Bool) (E : Block → Block) (src dst : Nat) (r : CfbRun) :
    cfbRunFrom enc E src dst r 0 = r := rfl

theorem cfbRunFrom_succ (enc : Bool) (E : Block → Block) (src dst : Nat) (r : CfbRun) (n : Nat) :
    cfbRunFrom enc E src dst r (n + 1) = cfbPass enc E (src + n) (dst + n) (cfbRunFrom enc E src dst r n) := rfl

/-! ### The commands as runs -/

theorem cfbView_congr {s t : State} (hd : t.dbuf = s.dbuf) (he : t.epoch = s.epoch) (hi : t.iv = s.iv)
    (ho : t.offset = s.offset) : cfbView t = cfbView s := by
  rw [cfbView, cfbView, hi, ho, funext (dbufByte_congr hd he)]

@[simp] theorem cfbView_withOperands (len src dst : Word) (s : State) :
    cfbView (withOperands len src dst s) = cfbView s := cfbView_congr rfl rfl rfl rfl

@[simp] theorem cfbView_finish (code : ErrCode) (s : State) : cfbView (finish code s) = cfbView s :=
  cfbView_congr rfl rfl rfl rfl

/-- The state with `IV` and `OFFSET` reloaded. -/
def withStart (iv : Block) (offset : BitVec 4) (s : State) : State := { s with iv := iv, offset := offset }

@[simp] theorem blockFunction_withStart (d : Dir) (iv : Block) (offset : BitVec 4) (s : State) :
    blockFunction d (withStart iv offset s) = blockFunction d s :=
  blockFunction_congr d ⟨rfl, rfl, rfl, rfl⟩ rfl

theorem cfbView_withStart (iv : Block) (offset : BitVec 4) (s : State) :
    cfbView (withStart iv offset s) = { cfbView s with iv := iv, offset := offset.toNat } := rfl

theorem cfbByte_frame (enc : Bool) (i : Nat) (s : State) : StreamFrame s (cfbByte enc i s) := by
  cases enc with
  | true => exact cfbEncByte_frame i s
  | false => exact cfbDecByte_frame i s

theorem refreshKeystream_iv_eq_keystreamBlock (s : State) :
    (refreshKeystream s).iv = keystreamBlock (blockFunction .enc s) (cfbView s) := by
  have zero : s.offset = 0 ↔ s.offset.toNat = 0 := BitVec.toNat_inj.symm
  simp only [refreshKeystream_iv, zero]
  rfl

theorem cfbView_cfbByte (enc : Bool) (i : Nat) (s : State) :
    cfbView (cfbByte enc i s) =
      cfbPass enc (blockFunction .enc s) (s.src.toNat + i) (s.dst.toNat + i) (cfbView s) := by
  have next : (s.offset + 1).toNat = (s.offset.toNat + 1) % 16 := BitVec.toNat_add s.offset 1
  cases enc with
  | true =>
    rw [cfbView, cfbByte, cfbEncByte_iv, cfbEncByte_offset, next, funext (cfbEncByte_dbufByte i s),
      refreshKeystream_iv_eq_keystreamBlock]
    rfl
  | false =>
    rw [cfbView, cfbByte, cfbDecByte_iv, cfbDecByte_offset, next, funext (cfbDecByte_dbufByte i s),
      refreshKeystream_iv_eq_keystreamBlock]
    rfl

/-- No pass changes the context or the operands, so the loop is a run with those it starts with. -/
theorem cfbView_forUpTo_cfbByte (enc : Bool) (n : Nat) (s : State) :
    cfbView (forUpTo (cfbByte enc) n s) =
      cfbRunFrom enc (blockFunction .enc s) s.src.toNat s.dst.toNat (cfbView s) n := by
  induction n with
  | zero => rw [cfbRunFrom_zero, forUpTo]
  | succ n ih =>
    have frame : StreamFrame s (forUpTo (cfbByte enc) n s) := forUpTo_frame (cfbByte_frame enc) n s
    obtain ⟨hcfg, -, -, hsrc, hdst⟩ := sameOperands_of_streamFrame frame
    rw [forUpTo, cfbView_cfbByte, blockFunction_congr .enc (sameContext_of_streamFrame frame) hcfg, hsrc, hdst, ih,
      cfbRunFrom_succ]

/-- A CFB128 command that passes its checks is a run of `LEN` passes (44_cfb128.md R195, R198, R199). -/
theorem exec_cfbCommand (enc : Bool) {s : State} (hc : HasContext s .enc) (hr : InRange s) :
    ∃ t, exec (cfbCommand enc) s = .next (finish .ok t) ∧ StreamFrame s t ∧
      cfbView t = cfbRunFrom enc (blockFunction .enc s) s.src.toNat s.dst.toNat (cfbView s) s.len.toNat := by
  have checks : cfbChecks s = none := cfbChecks_none.2 ⟨hc, hr⟩
  refine ⟨_, ?_, forUpTo_frame (cfbByte_frame enc) s.len.toNat s, cfbView_forUpTo_cfbByte enc s.len.toNat s⟩
  cases enc with
  | true => simp only [cfbCommand, exec, execCfbEnc, checks, runChecked_none, cfbByte]
  | false => simp only [cfbCommand, exec, execCfbDec, checks, runChecked_none, cfbByte]

theorem exec_cfbCommand_withOperands (enc : Bool) {s : State} (hc : HasContext s .enc) {len : Word} (src dst : Word)
    {n : Nat} (hlen : len.toNat = n) (hr : src.toNat + n ≤ s.cfg.dbufSize ∧ dst.toNat + n ≤ s.cfg.dbufSize) :
    ∃ t, exec (cfbCommand enc) (withOperands len src dst s) = .next (finish .ok t) ∧ SameContext s t ∧
      t.cfg = s.cfg ∧ cfbView t = cfbRunFrom enc (blockFunction .enc s) src.toNat dst.toNat (cfbView s) n := by
  subst hlen
  obtain ⟨t, ht, frame, view⟩ := exec_cfbCommand enc (s := withOperands len src dst s) hc hr
  obtain ⟨hcfg, -⟩ := sameOperands_of_streamFrame frame
  rw [blockFunction_withOperands, cfbView_withOperands] at view
  exact ⟨t, ht, sameContext_of_streamFrame (s := withOperands len src dst s) frame, hcfg, view⟩

/-- `SETKEY_ENC` with a legal key length loads an encryption context and leaves what a CFB128 command works on
(41_key_schedule.md R144). -/
theorem exec_setkeyEnc_cfbView {keylen : Nat} (h : keylenOk keylen = true) (s : State) :
    ∃ t, exec (.setkeyEnc keylen) s = .next t ∧ HasContext t .enc ∧ SameOperands s t ∧ cfbView t = cfbView s :=
  ⟨_, exec_setkeyEnc_of_keylenOk h s, ⟨rfl, rfl⟩, ⟨rfl, rfl, rfl, rfl, rfl⟩, cfbView_congr rfl rfl rfl rfl⟩

/-! ### Where a run stands and where it writes -/

theorem cfbRunFrom_offset (enc : Bool) (E : Block → Block) (src dst : Nat) {r : CfbRun} (hr : r.offset < 16)
    (n : Nat) : (cfbRunFrom enc E src dst r n).offset = (r.offset + n) % 16 := by
  induction n with
  | zero => exact (Nat.mod_eq_of_lt hr).symm
  | succ n ih => rw [cfbRunFrom_succ, cfbPass, ih, Nat.mod_add_mod, Nat.add_assoc]

theorem cfbPass_output (enc : Bool) (E : Block → Block) (src dst : Nat) (r : CfbRun) :
    (cfbPass enc E src dst r).mem dst = cfbOutput E src r := if_pos rfl

theorem cfbPass_frame (enc : Bool) (E : Block → Block) (src : Nat) {dst : Nat} (r : CfbRun) {x : Nat} (h : x ≠ dst) :
    (cfbPass enc E src dst r).mem x = r.mem x := if_neg h

/-- The passes from `k` to `n` write the output bytes `k` to `n - 1` and nothing else. -/
theorem cfbRunFrom_frame (enc : Bool) (E : Block → Block) (src dst : Nat) (r : CfbRun) {k n x : Nat} (hk : k ≤ n)
    (h : x < dst + k ∨ dst + n ≤ x) :
    (cfbRunFrom enc E src dst r n).mem x = (cfbRunFrom enc E src dst r k).mem x := by
  induction n, hk using Nat.le_induction with
  | base => rfl
  | succ n hk ih => rw [cfbRunFrom_succ, cfbPass_frame enc E _ _ (by omega), ih (by omega)]

/-- A run in two parts, the second from what the first left (44_cfb128.md R202). -/
theorem cfbRunFrom_add (enc : Bool) (E : Block → Block) (src dst : Nat) (r : CfbRun) (a b : Nat) :
    cfbRunFrom enc E src dst r (a + b) =
      cfbRunFrom enc E (src + a) (dst + a) (cfbRunFrom enc E src dst r a) b := by
  induction b with
  | zero => rfl
  | succ b ih => rw [← Nat.add_assoc, cfbRunFrom_succ, cfbRunFrom_succ, ih, Nat.add_assoc, Nat.add_assoc]

/-! ### Decryption of what encryption wrote (44_cfb128.md R203) -/

/-- With buffers that are the same or apart, pass `k` reads a byte that the earlier passes did not write. -/
theorem cfbRunFrom_src (enc : Bool) (E : Block → Block) {src dst k n : Nat} (r : CfbRun) (hk : k < n)
    (h : src = dst ∨ src + n ≤ dst ∨ dst + n ≤ src) :
    (cfbRunFrom enc E src dst r k).mem (src + k) = r.mem (src + k) := by
  rw [cfbRunFrom_frame enc E src dst r (Nat.zero_le k) (by omega), cfbRunFrom_zero]

/-- The output byte of pass `k` stands in the memory after the run, since no later pass writes there. -/
theorem cfbRunFrom_output (enc : Bool) (E : Block → Block) (src dst : Nat) (r : CfbRun) {k n : Nat} (hk : k < n) :
    (cfbRunFrom enc E src dst r n).mem (dst + k) = cfbOutput E (src + k) (cfbRunFrom enc E src dst r k) := by
  rw [cfbRunFrom_frame enc E src dst r hk (by omega), cfbRunFrom_succ, cfbPass_output]

/-- The two runs stand at the same `IV` and offset, so their next passes use the same keystream byte. -/
def SameFeedback (r p : CfbRun) : Prop := p.iv = r.iv ∧ p.offset = r.offset

theorem keystreamBlock_congr (E : Block → Block) {r p : CfbRun} (h : SameFeedback r p) :
    keystreamBlock E p = keystreamBlock E r := by
  obtain ⟨hiv, hoffset⟩ := h
  rw [keystreamBlock, keystreamBlock, hiv, hoffset]

/-- A decrypting pass over the byte that the encrypting pass wrote gives the byte that pass read. -/
theorem cfbOutput_cfbOutput (E : Block → Block) {r p : CfbRun} (h : SameFeedback r p) {src a : Nat}
    (hc : p.mem a = cfbOutput E src r) : cfbOutput E a p = r.mem src := by
  have block := keystreamBlock_congr E h
  obtain ⟨-, hoffset⟩ := h
  rw [cfbOutput, hc, cfbOutput, block, hoffset, BitVec.xor_assoc, BitVec.xor_self, BitVec.xor_zero]

/-- Both passes feed back the ciphertext byte (44_cfb128.md R198, R199). -/
theorem sameFeedback_cfbPass (E : Block → Block) {r p : CfbRun} (h : SameFeedback r p) {src a : Nat}
    (hc : p.mem a = cfbOutput E src r) (dst dst' : Nat) :
    SameFeedback (cfbPass true E src dst r) (cfbPass false E a dst' p) := by
  have block := keystreamBlock_congr E h
  obtain ⟨-, hoffset⟩ := h
  exact ⟨by simp [cfbPass, block, hoffset, hc], by simp [cfbPass, hoffset]⟩

/-- Decryption in place over the output of encryption, from the same `IV` and offset, stands after each pass at the
`IV` and offset that encryption had there, and has the plaintext in the bytes done. -/
theorem cfbRunFrom_dec_cfbRunFrom_enc (E : Block → Block) {src dst n : Nat}
    (h : src = dst ∨ src + n ≤ dst ∨ dst + n ≤ src) (r : CfbRun) {k : Nat} (hk : k ≤ n) :
    let c := { r with mem := (cfbRunFrom true E src dst r n).mem }
    let p := cfbRunFrom false E dst dst c k
    SameFeedback (cfbRunFrom true E src dst r k) p ∧ ∀ i, i < k → p.mem (dst + i) = r.mem (src + i) := by
  intro c
  induction k with
  | zero => exact ⟨⟨rfl, rfl⟩, by omega⟩
  | succ k ih =>
    obtain ⟨feedback, done⟩ := ih (by omega)
    have cipher : (cfbRunFrom false E dst dst c k).mem (dst + k) =
        cfbOutput E (src + k) (cfbRunFrom true E src dst r k) :=
      (cfbRunFrom_src false E c hk (.inl rfl)).trans (cfbRunFrom_output true E src dst r hk)
    refine ⟨sameFeedback_cfbPass E feedback cipher _ _, fun i hi => ?_⟩
    obtain before | rfl := Nat.lt_succ_iff_lt_or_eq.1 hi
    · rw [cfbRunFrom_succ, cfbPass_frame _ E _ _ (by omega), done i before]
    · rw [cfbRunFrom_succ, cfbPass_output, cfbOutput_cfbOutput E feedback cipher, cfbRunFrom_src true E r hk h]

end Sys2Proof.Proofs
end

section
/-!
PROOFS. The statements about CFB128 mode (44_cfb128.md R200, R202, R203).
-/

namespace Sys2Proof.Proofs

open Sys2Proof.Machine Sys2Proof.Claims

/-- Settles O32: each of the `LEN` passes moves the offset on by one, modulo 16. -/
theorem cfbOffsetAfter : Obligations.CfbOffsetAfter := by
  unfold Obligations.CfbOffsetAfter
  intro s hc hr
  have offsetAfter (enc : Bool) : ∃ t, exec (cfbCommand enc) s = .next t ∧
      t.offset.toNat = (s.offset.toNat + s.len.toNat) % 16 := by
    obtain ⟨t, ht, -, view⟩ := exec_cfbCommand enc hc hr
    exact ⟨_, ht, (congrArg CfbRun.offset view).trans (cfbRunFrom_offset enc _ _ _ s.offset.isLt _)⟩
  exact ⟨offsetAfter true, offsetAfter false⟩

/-- Settles O35: the second command's run goes on from the bytes, the IV and the offset that the first left. -/
theorem cfbContinuation : Obligations.CfbContinuation := by
  unfold Obligations.CfbContinuation
  intro i s a b hi hlegal hc hsrc hdst
  obtain ⟨enc, rfl⟩ : ∃ enc, i = cfbCommand enc := hi.elim (fun h => ⟨true, h⟩) (fun h => ⟨false, h⟩)
  have hsize : s.cfg.dbufSize ≤ 4096 := by
    simp only [Config.legal, Bool.and_eq_true, decide_eq_true_eq] at hlegal
    exact hlegal.2
  have length : ∀ k, k ≤ a + b → (BitVec.ofNat 32 k).toNat = k := by
    intro k hk
    rw [BitVec.toNat_ofNat]
    omega
  have srcAfter : (s.src + BitVec.ofNat 32 a).toNat = s.src.toNat + a := toNat_add_ofNat (by omega)
  have dstAfter : (s.dst + BitVec.ofNat 32 a).toNat = s.dst.toNat + a := toNat_add_ofNat (by omega)
  obtain ⟨t, ht, -, -, one⟩ :=
    exec_cfbCommand_withOperands enc hc s.src s.dst (length (a + b) le_rfl) ⟨hsrc, hdst⟩
  obtain ⟨u, hu, context, hcfg, first⟩ :=
    exec_cfbCommand_withOperands enc hc s.src s.dst (length a (by omega)) (by omega)
  obtain ⟨v, hv, -, -, second⟩ := exec_cfbCommand_withOperands enc (s := finish .ok u)
    (hasContext_of_sameContext context hc) (s.src + BitVec.ofNat 32 a) (s.dst + BitVec.ofNat 32 a)
    (length b (by omega)) (by rw [srcAfter, dstAfter, finish_cfg, hcfg]; omega)
  have same : cfbView v = cfbView t := by
    rw [second, one, cfbRunFrom_add, ← first, srcAfter, dstAfter, blockFunction_finish, cfbView_finish,
      blockFunction_congr .enc context hcfg]
  obtain ⟨bytes, hiv, hoffset⟩ := CfbRun.mk.inj same
  exact ⟨_, _, _, ht, hu, hv, rfl, hiv, BitVec.eq_of_toNat_eq hoffset, congrFun bytes⟩

/-- Settles O60: decryption byte by byte takes encryption back, whatever cipher the context computes. -/
theorem cfbRoundTrip : Obligations.CfbRoundTrip := by
  unfold Obligations.CfbRoundTrip InRange InPlaceOrApart
  intro s keylen hk hoffset ⟨srcFits, dstFits⟩ hplace
  have start := hplace.imp_left (congrArg BitVec.toNat)
  obtain ⟨t, ht, context, ⟨tcfg, -, tlen, tsrc, tdst⟩, tview⟩ :=
    exec_setkeyEnc_cfbView ((keylenOk_iff keylen).2 hk) s
  obtain ⟨u, hu, frame, encrypted⟩ := exec_cfbCommand true context
    (by rw [InRange, tcfg, tlen, tsrc, tdst]; exact ⟨srcFits, dstFits⟩)
  obtain ⟨ucfg, -, ulen, -, udst⟩ := sameOperands_of_streamFrame frame
  rw [tsrc, tdst, tlen, tview] at encrypted
  replace ucfg : u.cfg = s.cfg := ucfg.trans tcfg
  replace ulen : u.len = s.len := ulen.trans tlen
  replace udst : u.dst = s.dst := udst.trans tdst
  have sameContext : SameContext t u := sameContext_of_streamFrame frame
  obtain ⟨x, hx, -, -, decrypted⟩ := exec_cfbCommand_withOperands false (s := withStart s.iv 0 (finish .ok u))
    (hasContext_of_sameContext sameContext context) s.dst u.dst (congrArg BitVec.toNat ulen)
    (by rw [udst]; exact ucfg ▸ ⟨dstFits, dstFits⟩)
  rw [blockFunction_withStart, blockFunction_finish, blockFunction_congr .enc sameContext (ucfg.trans tcfg.symm),
    cfbView_withStart, cfbView_finish, encrypted, udst, ← hoffset] at decrypted
  obtain ⟨-, plain⟩ := cfbRunFrom_dec_cfbRunFrom_enc (blockFunction .enc t) start (cfbView s) le_rfl
  refine ⟨_, _, _, ht, hu, hx, rfl, rfl, fun i hi => ?_⟩
  exact (congrFun (congrArg CfbRun.mem decrypted) _).trans (plain i hi)

end Sys2Proof.Proofs
end

section
/-!
SUPPORT. Which word is `NOP` (30_encoding.md R95), what the self-test writes (45_control.md R218), and that its checks
pass with the spec's tables (R219, R221).
-/

namespace Sys2Proof.Proofs

open Sys2Proof.Machine

/-! ### The word of NOP -/

/-- What a word has passed when the decoder answers a command (30_encoding.md R95). -/
theorem decode_command {w : Word} {i : Instr} (h : decode w = .command i) :
    reservedClear w = true ∧ opcodeMap (opField w) (keylenField w) (verboseField w) = some i ∧
      ¬ (keylenField w ≠ 0 ∧ opField w ≠ 0x1 ∧ opField w ≠ 0x2) ∧ ¬ (verboseField w = true ∧ opField w ≠ 0x9) := by
  unfold decode at h
  split at h
  · cases h
  split at h
  · cases h
  split at h
  · cases h
  split at h
  · cases h
  rename_i reserved _ j opcode keylen verbose
  cases h
  exact ⟨by simpa using reserved, opcode, keylen, verbose⟩

theorem op_eq_zero_of_opcodeMap {op : BitVec 4} {keylen : Nat} {verbose : Bool}
    (h : opcodeMap op keylen verbose = some .nop) : op = 0 := by
  unfold opcodeMap at h
  split at h
  next h0 => exact BitVec.eq_of_toNat_eq h0
  all_goals cases h

/-- The fields of 30_encoding.md R90 cover the word. -/
theorem eq_zero_of_fields {w : Word} (hr : reservedClear w = true) (ho : opField w = 0) (hk : keylenField w = 0)
    (hv : verboseField w = false) : w = 0 := by
  simp only [reservedClear, opField, keylenField, verboseField, Bool.and_eq_true, beq_iff_eq, ← BitVec.toNat_inj,
    BitVec.extractLsb'_toNat, BitVec.getLsbD, Nat.testBit_eq_decide_div_mod_eq, Nat.shiftRight_eq_div_pow,
    decide_eq_false_iff_not, BitVec.ofNat_eq_ofNat, BitVec.toNat_ofNat] at hr ho hk hv ⊢
  omega

theorem decode_eq_nop_iff (w : Word) : decode w = .command .nop ↔ w = 0 := by
  constructor
  · intro h
    obtain ⟨reserved, opcode, keylen, verbose⟩ := decode_command h
    have op : opField w = 0 := op_eq_zero_of_opcodeMap opcode
    refine eq_zero_of_fields reserved op ?_ ?_
    · by_contra hk
      exact keylen ⟨hk, by simp [op]⟩
    · by_contra hv
      exact verbose ⟨by simpa using hv, by simp [op]⟩
  · rintro rfl
    decide

theorem exec_nop (s : State) : exec .nop s = .next { s with err := .ok, seq := .idle, done := true } := exec_eq .nop s

/-! ### The bits of the self-test -/

/-- `if check_i() passes: bits <- bits | (1 << i)`, bit by bit (45_control.md R218). -/
theorem getLsbD_setPassBit (c : Bool) (i : Nat) (bits : BitVec 12) {j : Nat} (hj : j < 12) :
    (if c then bits ||| (1 <<< i) else bits).getLsbD j = (bits.getLsbD j || (c && decide (i = j))) := by
  cases c with
  | false => simp
  | true =>
    rw [if_pos rfl, BitVec.getLsbD_or, BitVec.natCast_eq_ofNat, BitVec.getLsbD_ofNat, Nat.one_shiftLeft,
      Nat.testBit_two_pow, decide_eq_true hj, Bool.true_and]

/-- Bit `j` is set by the check with that number, or was set before. -/
theorem getLsbD_packBits (cs : List Bool) (i : Nat) (bits : BitVec 12) {j : Nat} (hj : j < 12) :
    (packBits i bits cs).getLsbD j = (bits.getLsbD j || (decide (i ≤ j) && cs.getD (j - i) false)) := by
  induction cs generalizing i bits with
  | nil => simp [packBits]
  | cons c cs ih =>
    rw [packBits, ih, getLsbD_setPassBit c i bits hj, Bool.or_assoc]
    obtain before | rfl | after := Nat.lt_trichotomy j i
    · simp [show ¬ i ≤ j by omega, show ¬ i + 1 ≤ j by omega, show i ≠ j by omega]
    · simp
    · rw [show j - i = j - (i + 1) + 1 by omega, List.getD_cons_succ]
      simp [show i ≤ j by omega, show i + 1 ≤ j by omega, show i ≠ j by omega]

/-- `PASS` bit `i` is the outcome of check `i` (45_control.md R218). -/
theorem getLsbD_selfTestBits (T : Tables) {i : Nat} (hi : i < 12) :
    (selfTestBits T).getLsbD i = (selfTestChecks T).getD i false := by
  simp [selfTestBits, getLsbD_packBits _ _ _ hi]

theorem selfTestBits_eq_allOnes_iff (T : Tables) :
    selfTestBits T = 0xFFF ↔ ∀ i, i < 12 → (selfTestChecks T).getD i false = true := by
  have ones : (0xFFF : BitVec 12) = BitVec.allOnes 12 := rfl
  constructor
  · intro h i hi
    rw [← getLsbD_selfTestBits T hi, h, ones, BitVec.getLsbD_allOnes, decide_eq_true hi]
  · intro h
    refine BitVec.eq_of_getLsbD_eq fun i hi => ?_
    rw [getLsbD_selfTestBits T hi, h i hi, ones, BitVec.getLsbD_allOnes, decide_eq_true hi]

theorem stResultWord_of_pass {s : State} (hpass : s.stPass = 0xFFF) (hran : s.stRan = true) :
    stResultWord s = 0x00010FFF := by
  rw [stResultWord, hpass, hran]
  decide

/-- The completion of `SELF_TEST` (45_control.md R218), in which `VERBOSE` has no part (R222). -/
theorem exec_selfTest (verbose : Bool) (s : State) :
    exec (.selfTest verbose) s = .next { s with
      stPass := selfTestBits s.cfg.tables
      stRan := true
      err := if selfTestBits s.cfg.tables = 0xFFF then .ok else .selfTestFailed
      seq := .idle
      done := true } := by
  rw [exec_eq, codeOf, bodyOf]
  split <;> rfl

/-! ### The checks with the spec's tables -/

section

/- `decide +kernel` would hold a thread for each check until every declaration before it is checked; `decide` does not, at
the price of a deeper recursion. -/
set_option maxRecDepth 2000

theorem scratchEnc_ecbTest128 : scratchEnc Tables.standard ecbTestKey 16 ecbTestPlain = ecbTest128 := by decide

theorem scratchEnc_ecbTest192 : scratchEnc Tables.standard ecbTestKey 24 ecbTestPlain = ecbTest192 := by decide

theorem scratchEnc_ecbTest256 : scratchEnc Tables.standard ecbTestKey 32 ecbTestPlain = ecbTest256 := by decide

theorem cbcEncList_cbcTest128 :
    cbcEncList (scratchEnc Tables.standard cbcTestKey128 16) cbcTestIv cbcTestPlain = cbcTest128 := by decide

theorem cbcEncList_cbcTest192 :
    cbcEncList (scratchEnc Tables.standard cbcTestKey192 24) cbcTestIv cbcTestPlain = cbcTest192 := by decide

theorem cbcEncList_cbcTest256 :
    cbcEncList (scratchEnc Tables.standard cbcTestKey256 32) cbcTestIv cbcTestPlain = cbcTest256 := by decide

end

/-- Decryption under a scratch context undoes encryption under that of the same key (42_block_transform.md R162). -/
theorem scratchDec_of_scratchEnc {K : List Column} {keylen : Nat} {p c : Block}
    (h : scratchEnc Tables.standard K keylen p = c) : scratchDec Tables.standard K keylen c = p := by
  subst h
  exact invCipher_decSchedule_cipher_encSchedule K keylen p

/-- CBC decryption of a list of blocks undoes encryption from the same IV (43_cbc.md R184). -/
theorem cbcDecList_cbcEncList {E D : Block → Block} (hD : ∀ b, D (E b) = b) (iv : Block) (ps : List Block) :
    cbcDecList D iv (cbcEncList E iv ps) = ps := by
  induction ps generalizing iv with
  | nil => rfl
  | cons p ps ih => rw [cbcEncList, cbcDecList, cbcDecBlock_cbcEncBlock hD, ih]

theorem cbcDecList_of_cbcEncList {K : List Column} {keylen : Nat} {iv : Block} {ps cs : List Block}
    (h : cbcEncList (scratchEnc Tables.standard K keylen) iv ps = cs) :
    cbcDecList (scratchDec Tables.standard K keylen) iv cs = ps := by
  subst h
  exact cbcDecList_cbcEncList (fun _ => scratchDec_of_scratchEnc rfl) iv ps

/-- Every check passes with the spec's tables (45_control.md R221): the encryptions by evaluation, and each decryption
because it takes back the encryption before it. -/
theorem selfTestChecks_standard : selfTestChecks Tables.standard = List.replicate 12 true := by
  simp only [selfTestChecks, List.replicate, decide_true,
    scratchEnc_ecbTest128, scratchDec_of_scratchEnc scratchEnc_ecbTest128,
    scratchEnc_ecbTest192, scratchDec_of_scratchEnc scratchEnc_ecbTest192,
    scratchEnc_ecbTest256, scratchDec_of_scratchEnc scratchEnc_ecbTest256,
    cbcEncList_cbcTest128, cbcDecList_of_cbcEncList cbcEncList_cbcTest128,
    cbcEncList_cbcTest192, cbcDecList_of_cbcEncList cbcEncList_cbcTest192,
    cbcEncList_cbcTest256, cbcDecList_of_cbcEncList cbcEncList_cbcTest256]

theorem selfTestBits_standard : selfTestBits Tables.standard = 0xFFF := by
  rw [selfTestBits, selfTestChecks_standard]
  rfl

end Sys2Proof.Proofs
end

section
/-!
PROOFS. The statements about issue, `NOP` and the self-test (45_control.md R215, R217, R221, R222).
-/

namespace Sys2Proof.Proofs

open Sys2Proof.Machine Sys2Proof.Claims

/-- Settles O36: with the spec's tables by `selfTestBits_standard`, with any others bit by bit. -/
theorem selfTestCompletes : Obligations.SelfTestCompletes := by
  unfold Obligations.SelfTestCompletes
  refine ⟨fun s verbose hT => ?_, fun s verbose => ?_, fun s => ?_⟩
  · have e := exec_selfTest verbose s
    rw [hT, selfTestBits_standard, if_pos rfl] at e
    exact ⟨_, e, rfl, stResultWord_of_pass rfl rfl⟩
  · refine ⟨_, exec_selfTest verbose s, rfl, fun i hi => getLsbD_selfTestBits s.cfg.tables hi, ?_, ?_⟩
    · exact ite_eq_or_eq _ _ _
    · rw [← selfTestBits_eq_allOnes_iff]
      simp
  · rw [exec_selfTest, exec_selfTest]

/-- Settles O6: the register map gives `CMD` at 0x004, whose write issues the word or is dropped. -/
theorem cmdWriteIssues : Obligations.CmdWriteIssues := by
  unfold Obligations.CmdWriteIssues
  exact ⟨fun s w rest hs hi => step_write_register hi rfl (.inl (busy_of_idle hs)),
    fun s u w rest hs hi => step_write_dropped hi (busy_of_busy hs) (.inl ⟨rfl, rfl⟩)⟩

/-- Settles O19: the completion update over an empty body, and the decoder's checks leave `NOP` no other word. -/
theorem nopCompletes : Obligations.NopCompletes := by
  unfold Obligations.NopCompletes
  refine ⟨exec_nop, by decide, decode_eq_nop_iff, ?_⟩
  have completes : step (State.reset.withFetchWord 32 0) = _ :=
    (step_engine rfl).trans ((engineTurn_command rfl ((decode_eq_nop_iff _).2 rfl)).trans (exec_nop _))
  exact ⟨_, completes, by decide⟩

end Sys2Proof.Proofs
end

section
/-!
SUPPORT. Errors (60_exceptions.md): which words the decoder rejects (R242), the code a command completes with (R247),
and what the body of a command that fails has done before its error is raised (R236).
-/

namespace Sys2Proof.Proofs

open Sys2Proof.Machine Sys2Proof.Claims

/-! ### The words that encode no command -/

/-- The opcode map has a row for the opcodes below 0xB (30_encoding.md R91). -/
theorem opcodeMap_exists_iff (op : BitVec 4) (keylen : Nat) (verbose : Bool) :
    (∃ i, opcodeMap op keylen verbose = some i) ↔ op.toNat < 11 := by
  unfold opcodeMap
  split
  case h_12 =>
    refine iff_of_false nofun fun h => ?_
    interval_cases op.toNat <;> contradiction
  all_goals exact iff_of_true ⟨_, rfl⟩ (by omega)

theorem keylenField_ne_zero {w : Word} : keylenField w ≠ 0 ↔ w.extractLsb' 8 6 ≠ 0 :=
  not_congr (BitVec.toNat_eq (y := 0)).symm

/-- A word is legal when it passes every check of the decoder (30_encoding.md R95). -/
theorem not_illegalWord_iff (w : Word) :
    ¬ IllegalWord w ↔ reservedClear w = true ∧ (opField w).toNat < 11 ∧
      ¬ (keylenField w ≠ 0 ∧ opField w ≠ 0x1 ∧ opField w ≠ 0x2) ∧ ¬ (verboseField w = true ∧ opField w ≠ 0x9) := by
  rw [keylenField_ne_zero]
  simp only [IllegalWord, reservedClear, opField, verboseField, Bool.and_eq_true, beq_iff_eq, not_or, not_le, ne_eq,
    not_not]
  tauto

/-- The decoder answers a command for the words R242 does not list, and for no other. -/
theorem decode_command_exists_iff (w : Word) : (∃ i, decode w = .command i) ↔ ¬ IllegalWord w := by
  rw [not_illegalWord_iff, ← opcodeMap_exists_iff _ (keylenField w) (verboseField w)]
  constructor
  · rintro ⟨i, h⟩
    obtain ⟨reserved, opcode, keylen, verbose⟩ := decode_command h
    exact ⟨reserved, ⟨i, opcode⟩, keylen, verbose⟩
  · rintro ⟨reserved, ⟨i, opcode⟩, keylen, verbose⟩
    exact ⟨i, by simp only [decode, reserved, opcode, if_neg keylen, if_neg verbose, Bool.not_true, Bool.false_eq_true,
      if_false]⟩

theorem decode_illegal {w : Word} (h : IllegalWord w) : ∃ why, decode w = .illegal why := by
  cases hd : decode w with
  | illegal why => exact ⟨why, rfl⟩
  | command i => exact absurd h ((decode_command_exists_iff w).1 ⟨i, hd⟩)

/-- An illegal word in flight completes with code 4 and no other effect (60_exceptions.md R242). -/
theorem engineTurn_illegalWord {s : State} {w : Word} (hs : s.seq = .busy w) (h : IllegalWord w) :
    engineTurn s = .next (finish .illegalCommand s) := by
  obtain ⟨why, hd⟩ := decode_illegal h
  exact engineTurn_illegal hs hd

/-! ### The code of a completion -/

theorem lengthOk_iff (s : State) : lengthOk s = true ↔ s.len.toNat % 16 = 0 := by simp [lengthOk]

theorem exec_err {i : Instr} {s t : State} (h : exec i s = .next t) : t.err = codeOf i s := by
  rw [exec_eq] at h
  rw [← next_inj h, finish_err]

theorem ecbChecks_getD (d : Dir) (s : State) :
    (ecbChecks d s).getD .ok = if ¬ (s.ctxValid = true ∧ s.ctxDir = d) then .contractViolation else .ok := by
  simp only [ecbChecks, Bool.not_eq_true', ← Bool.not_eq_true, contextOk_iff]
  split <;> rfl

theorem cbcChecks_getD (d : Dir) (s : State) :
    (cbcChecks d s).getD .ok =
      if ¬ (s.ctxValid = true ∧ s.ctxDir = d) then .contractViolation
      else if s.len.toNat % 16 ≠ 0 then .invalidInputLength
      else if ¬ (s.src.toNat + s.len.toNat ≤ s.cfg.dbufSize ∧ s.dst.toNat + s.len.toNat ≤ s.cfg.dbufSize) then .rangeError
      else .ok := by
  simp only [cbcChecks, ne_eq, Bool.not_eq_true', ← Bool.not_eq_true, contextOk_iff, lengthOk_iff, rangeOk_iff]
  split_ifs <;> rfl

theorem cfbChecks_getD (s : State) :
    (cfbChecks s).getD .ok =
      if ¬ (s.ctxValid = true ∧ s.ctxDir = .enc) then .contractViolation
      else if ¬ (s.src.toNat + s.len.toNat ≤ s.cfg.dbufSize ∧ s.dst.toNat + s.len.toNat ≤ s.cfg.dbufSize) then .rangeError
      else .ok := by
  simp only [cfbChecks, Bool.not_eq_true', ← Bool.not_eq_true, contextOk_iff, rangeOk_iff]
  split_ifs <;> rfl

theorem setkey_code (keylen : Nat) :
    (if keylenOk keylen = true then ErrCode.ok else .invalidKeyLength) =
      if keylen = 16 ∨ keylen = 24 ∨ keylen = 32 then .ok else .invalidKeyLength :=
  if_congr (keylenOk_iff keylen) rfl rfl

/-- The self-test's twelve bits are all set exactly when every check passes (45_control.md R218). -/
theorem selfTestBits_eq_allOnes_iff_all (T : Tables) : selfTestBits T = 0xFFF ↔ (selfTestChecks T).all id = true := by
  have length : (selfTestChecks T).length = 12 := rfl
  rw [selfTestBits_eq_allOnes_iff, List.all_eq_true, List.forall_mem_iff_forall_getElem]
  refine forall₂_congr fun i hi => ?_
  rw [List.getD_eq_getElem _ _ (length ▸ hi)]
  rfl

/-- A command completes with the code of its first failing check (60_exceptions.md R247). -/
theorem codeOf_eq_firstError (i : Instr) (s : State) : codeOf i s = firstError (.command i) s := by
  cases i with
  | nop => rfl
  | clearCtx => rfl
  | setkeyEnc keylen => exact setkey_code keylen
  | setkeyDec keylen => exact setkey_code keylen
  | ecbEnc => exact ecbChecks_getD .enc s
  | ecbDec => exact ecbChecks_getD .dec s
  | cbcEnc => exact cbcChecks_getD .enc s
  | cbcDec => exact cbcChecks_getD .dec s
  | cfbEnc => exact cfbChecks_getD s
  | cfbDec => exact cfbChecks_getD s
  | selfTest verbose => exact if_congr (selfTestBits_eq_allOnes_iff_all s.cfg.tables) rfl rfl

/-- Only a CBC command checks that `LEN` is whole blocks (60_exceptions.md R239). -/
theorem codeOf_ne_invalidInputLength {i : Instr} (henc : i ≠ .cbcEnc) (hdec : i ≠ .cbcDec) (s : State) :
    codeOf i s ≠ .invalidInputLength := by
  rw [codeOf_eq_firstError]
  cases i with
  | cbcEnc => exact absurd rfl henc
  | cbcDec => exact absurd rfl hdec
  | nop => exact nofun
  | clearCtx => exact nofun
  | _ => simp only [firstError]; split_ifs <;> exact nofun

/-! ### The body of a command that fails -/

/-- The commands that transform data: every check of theirs comes first (60_exceptions.md R236). -/
def DataCommand (i : Instr) : Prop :=
  i = .ecbEnc ∨ i = .ecbDec ∨ i = .cbcEnc ∨ i = .cbcDec ∨ i = .cfbEnc ∨ i = .cfbDec

theorem bodyOf_data_failed {i : Instr} {s : State} (hi : DataCommand i) (h : codeOf i s ≠ .ok) : bodyOf i s = s := by
  obtain rfl | rfl | rfl | rfl | rfl | rfl := hi <;> exact if_neg fun passed => h (congrArg (·.getD .ok) passed)

/-- A data command that fails makes the completion update and no other change. -/
theorem exec_data_failed {i : Instr} {s : State} {code : ErrCode} (hi : DataCommand i) (hcode : codeOf i s = code)
    (h : code ≠ .ok) : exec i s = .next (finish code { s with faults := faultsOf code ++ s.faults }) := by
  subst hcode
  rw [exec_eq, bodyOf_data_failed hi h]

/-- What a command that fails has done by its error: nothing, dropped the context, or written `ST_RESULT`
(60_exceptions.md R236). -/
theorem bodyOf_failed_cases {i : Instr} {s : State} (h : codeOf i s ≠ .ok) :
    (DataCommand i ∧ bodyOf i s = s) ∨ ((∃ k, i = .setkeyEnc k ∨ i = .setkeyDec k) ∧ bodyOf i s = dropContext s) ∨
      ((∃ v, i = .selfTest v) ∧ bodyOf i s = writeStResult (selfTestBits s.cfg.tables) s) := by
  by_cases hi : DataCommand i
  · exact .inl ⟨hi, bodyOf_data_failed hi h⟩
  refine .inr ?_
  cases i with
  | nop => exact absurd rfl h
  | clearCtx => exact absurd rfl h
  | setkeyEnc k => exact .inl ⟨⟨k, .inl rfl⟩, if_neg fun legal => h (if_pos legal)⟩
  | setkeyDec k => exact .inl ⟨⟨k, .inr rfl⟩, if_neg fun legal => h (if_pos legal)⟩
  | selfTest v => exact .inr ⟨⟨v, rfl⟩, rfl⟩
  | _ => exact absurd (by simp [DataCommand]) hi

/-! ### SETKEY with an illegal key length -/

/-- `SETKEY_*` with any other length makes the context unusable and raises code 1 (41_key_schedule.md R147). -/
theorem exec_setkeyCommand_of_not_keylenOk (d : Dir) {keylen : Nat} (h : ¬ keylenOk keylen = true) (s : State) :
    exec (setkeyCommand d keylen) s = .next (finish .invalidKeyLength (dropContext s)) := by
  cases d with
  | enc => exact if_neg h
  | dec => exact if_neg h

/-! ### The interrupt enable -/

theorem ie_of_streamFrame {s t : State} (h : StreamFrame s t) : t.ie = s.ie := by
  unfold StreamFrame at h
  rw [h]

/-- No command reaches `CTRL`. -/
theorem bodyOf_ie (i : Instr) (s : State) : (bodyOf i s).ie = s.ie := by
  cases i with
  | nop => rfl
  | clearCtx => rfl
  | selfTest v => rfl
  | setkeyEnc k => simp only [bodyOf]; split <;> rfl
  | setkeyDec k => simp only [bodyOf]; split <;> rfl
  | ecbEnc => simp only [bodyOf]; split <;> rfl
  | ecbDec => simp only [bodyOf]; split <;> rfl
  | cbcEnc => exact ie_of_streamFrame (bodyOf_stream s (by simp))
  | cbcDec => exact ie_of_streamFrame (bodyOf_stream s (by simp))
  | cfbEnc => exact ie_of_streamFrame (bodyOf_stream s (by simp))
  | cfbDec => exact ie_of_streamFrame (bodyOf_stream s (by simp))

/-- A completion, of a command or an illegal word, leaves `IE` and sets `DONE` (45_control.md R216). -/
theorem engineTurn_completes {s t : State} {w : Word} (hs : s.seq = .busy w) (h : engineTurn s = .next t) :
    t.ie = s.ie ∧ t.done = true := by
  cases hd : decode w with
  | illegal why =>
    rw [engineTurn_illegal hs hd] at h
    exact next_inj h ▸ ⟨rfl, rfl⟩
  | command i =>
    rw [engineTurn_command hs hd, exec_eq] at h
    exact next_inj h ▸ ⟨bodyOf_ie i s, rfl⟩

end Sys2Proof.Proofs
end

section
/-!
PROOFS. The statements about errors and the interrupt output (60_exceptions.md R236 to R248).
-/

namespace Sys2Proof.Proofs

open Sys2Proof.Machine Sys2Proof.Claims

/-- Settles O3: the decoder rejects the words R242 lists and no other, and the engine raises code 4 for those. -/
theorem illegalWordsCompleteWithCode4 : Obligations.IllegalWordsCompleteWithCode4 := by
  unfold Obligations.IllegalWordsCompleteWithCode4
  refine ⟨fun s w hs hi h => ?_, fun s w rest hs hi h => ?_, fun w h => (decode_command_exists_iff w).2 h⟩
  · exact (step_nil hi).trans (engineTurn_illegalWord hs h)
  · exact (step_engine hi).trans (engineTurn_illegalWord (s := { s with inputs := rest }) hs h)

/-- Settles O18: `irq` follows `IE` and `DONE`, which each of these steps is known to set. -/
theorem irqRisesAndFalls : Obligations.IrqRisesAndFalls := by
  unfold Obligations.IrqRisesAndFalls
  refine ⟨fun s => Bool.and_eq_true_iff, fun s t v rest hi hv h => ?_, fun s t w rest hs hi h => ?_,
    fun s t rest hi h => ?_, fun s t v rest hi h => ?_, fun s t w hs h => ?_, fun s b => rfl⟩
  · rw [step_write_register hi rfl (.inr rfl)] at h
    obtain rfl := next_inj h
    show (s.ie && (s.done && !v.getLsbD 1)) = false
    rw [hv, Bool.not_true, Bool.and_false, Bool.and_false]
  · rw [step_write_register hi rfl (.inl (busy_of_idle hs))] at h
    obtain rfl := next_inj h
    exact Bool.and_false s.ie
  · rw [step_reset hi] at h
    obtain rfl := next_inj h
    rfl
  · rw [step_write_register hi rfl (.inr rfl)] at h
    obtain rfl := next_inj h
    rfl
  · obtain ⟨ie, done⟩ := engineTurn_completes hs h
    rw [irq, ie, done, Bool.and_true]

/-- Settles O38: a data command with a failing check only completes, and its code is that of the first such check. -/
theorem lengthAndRangeErrors : Obligations.LengthAndRangeErrors := by
  unfold Obligations.LengthAndRangeErrors HasContext InRange
  refine ⟨fun i d s hi hc hlen => ?_, fun i s t henc hdec h => ?_, fun i d s hi hc hlen hr => ?_,
    fun i s hi hc hr => ?_⟩
  · have code : (cbcChecks d s).getD .ok = .invalidInputLength := by
      rw [cbcChecks_getD, if_neg (not_not_intro hc), if_pos hlen]
    obtain ⟨rfl, rfl⟩ | ⟨rfl, rfl⟩ := hi <;> exact exec_data_failed (by simp [DataCommand]) code nofun
  · rw [exec_err h]
    exact codeOf_ne_invalidInputLength henc hdec s
  · have code : (cbcChecks d s).getD .ok = .rangeError := by
      rw [cbcChecks_getD, if_neg (not_not_intro hc), if_neg (not_not_intro hlen), if_pos hr]
    obtain ⟨rfl, rfl⟩ | ⟨rfl, rfl⟩ := hi <;> exact exec_data_failed (by simp [DataCommand]) code nofun
  · have code : (cfbChecks s).getD .ok = .rangeError := by
      rw [cfbChecks_getD, if_neg (not_not_intro hc), if_pos hr]
    obtain rfl | rfl := hi <;> exact exec_data_failed (by simp [DataCommand]) code nofun

/-- Settles O39: an illegal word is raised as such, and a command's code is compared with the order of checks by
`codeOf_eq_firstError`. -/
theorem firstFailingCheckIsReported : Obligations.FirstFailingCheckIsReported := by
  unfold Obligations.FirstFailingCheckIsReported
  intro s t w hs h
  cases hd : decode w with
  | illegal why =>
    rw [engineTurn_illegal hs hd] at h
    exact next_inj h ▸ rfl
  | command i =>
    rw [engineTurn_command hs hd] at h
    rw [exec_err h, codeOf_eq_firstError]

/-- Settles O40: the three things a command that fails can have done before its error. -/
theorem failedCommandsChangeNothingElse : Obligations.FailedCommandsChangeNothingElse := by
  unfold Obligations.FailedCommandsChangeNothingElse
  intro i s t h herr
  rw [exec_err h] at herr
  rw [exec_eq] at h
  obtain rfl := next_inj h
  obtain ⟨hi, body⟩ | ⟨⟨k, hk⟩, body⟩ | ⟨⟨v, rfl⟩, body⟩ := bodyOf_failed_cases herr <;> rw [body]
  · refine ⟨rfl, ?_, fun _ => rfl, fun _ => ⟨rfl, rfl⟩, ?_⟩
    · rintro ⟨k, rfl | rfl⟩ <;> simp [DataCommand] at hi
    · rintro ⟨v, rfl⟩
      simp [DataCommand] at hi
  · refine ⟨rfl, fun _ => rfl, fun other => absurd hk (not_or.2 (other k)), fun _ => ⟨rfl, rfl⟩, ?_⟩
    rintro ⟨v, rfl⟩
    simp at hk
  · exact ⟨rfl, by simp, fun _ => rfl, fun other => absurd rfl (other v), fun _ => ⟨rfl, rfl⟩⟩

/-- Settles O46: the completion commutes with what the host may change meanwhile, so `c` is the same in each order. -/
theorem hostAndEngineInEitherOrder : Obligations.HostAndEngineInEitherOrder := by
  unfold Obligations.HostAndEngineInEitherOrder
  intro s w v rest hs
  obtain ⟨u, hidle, -, completes⟩ := engineTurn_busy hs
  refine ⟨hostSide true s.ovr s.resp rest u, completes s.done s.ovr s.resp rest, rfl, hidle, rfl, fun hi => ?_,
    fun hi => ?_, fun offset size ho hi => ?_⟩
  · refine ⟨_, _, step_write_register hi rfl (.inr rfl), rfl, rfl, rfl, ?_, rfl⟩
    exact (step_engine rfl).trans (completes _ _ _ rest)
  · exact ⟨_, _, (step_engine hi).trans (completes s.done s.ovr s.resp _), rfl,
      step_write_register rfl rfl (.inr rfl), rfl⟩
  · obtain ⟨dropped, -⟩ := busyWritesAreDropped s w v offset size _ hs hi
    refine ⟨_, _, dropped ho, rfl, ?_, rfl⟩
    exact (step_engine rfl).trans (completes _ _ _ rest)

/-- Settles O22: `SETKEY_*` with any other length drops the context and raises code 1, and 0x1401 has the length 20. -/
theorem invalidKeyLengthMakesContextUnusable : Obligations.InvalidKeyLengthMakesContextUnusable := by
  unfold Obligations.InvalidKeyLengthMakesContextUnusable
  refine ⟨fun s keylen h16 h24 h32 => ?_, fun s t keylen h => ?_, fun s t hs hi h => ?_⟩
  · have illegal : ¬ keylenOk keylen = true := by simp [keylenOk_iff, h16, h24, h32]
    exact ⟨exec_setkeyCommand_of_not_keylenOk .enc illegal s, exec_setkeyCommand_of_not_keylenOk .dec illegal s⟩
  · have code : t.err = if keylenOk keylen then .ok else .invalidKeyLength := by
      obtain h | h := h <;> exact exec_err h
    exact code ▸ ite_eq_or_eq _ _ _
  · have decoded : decode 0x00001401 = .command (.setkeyEnc 20) := by decide
    rw [step_nil hi, engineTurn_command hs decoded] at h
    exact exec_err h

end Sys2Proof.Proofs
end

section
/-!
SUPPORT. What the key register has to do with the data commands (70_reset_and_hazards.md R277), and what reset leaves
for them (R265).
-/

namespace Sys2Proof.Proofs

open Sys2Proof.Machine Sys2Proof.Claims

/-! ### The key register under a data command -/

/-- The state with another key in the key register. -/
def withKey (K : Vector Column 8) (s : State) : State := { s with key := K }

theorem memWrite_withKey (K : Vector Column 8) (s : State) (a : Nat) (vs : List Byte) :
    memWrite (withKey K s) a vs = withKey K (memWrite s a vs) := by
  induction vs generalizing s a with
  | nil => rfl
  | cons v vs ih => exact ih (setDbufByte s a v) (a + 1)

theorem cbcUnit_withKey (K : Vector Column 8) (d : Dir) (j : Nat) (s : State) :
    cbcUnit d j (withKey K s) = withKey K (cbcUnit d j s) := by
  cases d with
  | enc => simp only [cbcUnit, cbcEncUnit, memWriteBlock, memWrite_withKey]; rfl
  | dec => simp only [cbcUnit, cbcDecUnit, memWriteBlock, memWrite_withKey]; rfl

theorem refreshKeystream_withKey (K : Vector Column 8) (s : State) :
    refreshKeystream (withKey K s) = withKey K (refreshKeystream s) := by
  have offset : (withKey K s).offset = s.offset := rfl
  simp only [refreshKeystream, offset]
  split <;> rfl

theorem cfbByte_withKey (K : Vector Column 8) (enc : Bool) (i : Nat) (s : State) :
    cfbByte enc i (withKey K s) = withKey K (cfbByte enc i s) := by
  cases enc with
  | true => simp only [cfbByte, cfbEncByte, refreshKeystream_withKey]; rfl
  | false => simp only [cfbByte, cfbDecByte, refreshKeystream_withKey]; rfl

/-- No command's code depends on the key: `SETKEY_*` checks the length only. -/
theorem codeOf_withKey (i : Instr) (K : Vector Column 8) (s : State) : codeOf i (withKey K s) = codeOf i s := by
  cases i <;> rfl

/-- The body of a data command neither reads nor writes the key register: it is one `if`, over
a check that reads no key. -/
theorem bodyOf_withKey {i : Instr} (hi : DataCommand i) (K : Vector Column 8) (s : State) :
    bodyOf i (withKey K s) = withKey K (bodyOf i s) := by
  have cbc (d : Dir) (n : Nat) := forUpTo_comm (cbcUnit_withKey K d) n s
  have cfb (enc : Bool) (n : Nat) := forUpTo_comm (cfbByte_withKey K enc) n s
  obtain rfl | rfl | rfl | rfl | rfl | rfl := hi <;> refine .trans ?_ (apply_ite (withKey K) _ _ _).symm
  · rfl
  · rfl
  · exact if_congr .rfl (cbc .enc _) rfl
  · exact if_congr .rfl (cbc .dec _) rfl
  · exact if_congr .rfl (cfb true _) rfl
  · exact if_congr .rfl (cfb false _) rfl

/-! ### A data command without a context -/

theorem codeOf_data_of_not_ctxValid {i : Instr} {s : State} (hi : DataCommand i) (h : s.ctxValid = false) :
    codeOf i s = .contractViolation := by
  have unusable (d : Dir) : contextOk d s = false := by rw [contextOk, h, Bool.false_and]
  obtain rfl | rfl | rfl | rfl | rfl | rfl := hi <;> simp [codeOf, ecbChecks, cbcChecks, cfbChecks, unusable]

/-! ### Words of the reset state -/

theorem keyWord_of_key_eq_reset {s : State} (h : s.key = State.reset.key) (k : Nat) : keyWord s k = Column.zero := by
  rw [keyWord, h, State.reset, Vector.toList_replicate, List.getD_eq_getElem?_getD,
    List.getElem?_getD_replicate_default_eq]

theorem statusWord_reset : statusWord State.reset = 0 := by decide

theorem stResultWord_reset : stResultWord State.reset = 0 := by decide

/-- The fields of `STATUS` are among those the reset input gives their reset values. -/
theorem statusWord_resetInput (s : State) : statusWord (resetInput s) = 0 := statusWord_reset

theorem stResultWord_resetInput (s : State) : stResultWord (resetInput s) = 0 := stResultWord_reset

end Sys2Proof.Proofs
end

section
/-!
PROOFS. The statements about reset and the use of the key register (70_reset_and_hazards.md R265, R267, R277).
-/

namespace Sys2Proof.Proofs

open Sys2Proof.Machine Sys2Proof.Claims

/-- Settles O49: no host access reaches the context, and a data command's code and body are the same under any key. -/
theorem keyWritesLeaveTheContext : Obligations.KeyWritesLeaveTheContext := by
  unfold Obligations.KeyWritesLeaveTheContext
  refine ⟨fun s k v rest _ hi => ?_, fun i s t K hdata h => ?_⟩
  · obtain ⟨valid, dir, nr, rk⟩ := hostAccess_sameContext (.write (0x020 + 4 * k) 4 v) { s with inputs := rest }
    exact ⟨_, step_access hi, rk, nr, dir, valid⟩
  · rw [exec_eq] at h
    obtain rfl := next_inj h
    refine (exec_eq i (withKey K s)).trans ?_
    rw [codeOf_withKey, bodyOf_withKey hdata]
    rfl

/-- Settles O44: the reset input drops the command in flight with the rest of the state, and without a valid context a
data command is refused. -/
theorem resetGivesTheResetState : Obligations.ResetGivesTheResetState := by
  unfold Obligations.ResetGivesTheResetState
  refine ⟨fun s rest hi => ⟨_, step_reset hi, rfl, rfl, statusWord_resetInput _, rfl, rfl, rfl, rfl,
    stResultWord_resetInput _, keyWord_of_key_eq_reset rfl, rfl, rfl, rfl, rfl, rfl,
    fun i hdata => ⟨_, exec_eq i _, codeOf_data_of_not_ctxValid hdata rfl⟩⟩, ?_⟩
  exact ⟨rfl, rfl, statusWord_reset, rfl, rfl, rfl, rfl, stResultWord_reset,
    keyWord_of_key_eq_reset rfl, rfl, rfl, rfl, rfl, rfl⟩

end Sys2Proof.Proofs
end

section
/-!
SUPPORT. The fields of the command word (30_encoding.md R90): what the encoder puts in them, and that they
cover the word.
-/

namespace Sys2Proof.Proofs

open Sys2Proof.Machine

/-! ### The word of given fields -/

theorem toNat_shiftLeft_ofNat {k n : Nat} (h : 2 ^ n * k < 2 ^ 32) : (BitVec.ofNat 32 k <<< n).toNat = 2 ^ n * k := by
  rw [BitVec.toNat_shiftLeft, BitVec.toNat_ofNat, Nat.shiftLeft_eq, Nat.mod_mul_mod, Nat.mul_comm, Nat.mod_eq_of_lt h]

section

variable {op keylen : Nat} (hop : op < 16) (hk : keylen < 64) (verbose : Bool)
include hop hk

/-- The fields of a command word do not overlap, so it is a sum (30_encoding.md R100). -/
theorem commandWord_toNat : (commandWord op keylen verbose).toNat = op + 2 ^ 8 * keylen + 2 ^ 16 * verbose.toNat := by
  have hv : verbose.toNat ≤ 1 := Bool.toNat_le verbose
  have opcode : (BitVec.ofNat 32 op).toNat = op := Nat.mod_eq_of_lt (by omega)
  rw [commandWord, BitVec.toNat_or, BitVec.toNat_or, opcode, toNat_shiftLeft_ofNat (by omega),
    toNat_shiftLeft_ofNat (by omega), Nat.or_comm op, ← Nat.two_pow_add_eq_or_of_lt (by omega : op < 2 ^ 8),
    Nat.or_comm, ← Nat.two_pow_add_eq_or_of_lt (by omega : 2 ^ 8 * keylen + op < 2 ^ 16)]
  omega

theorem reservedClear_commandWord : reservedClear (commandWord op keylen verbose) = true := by
  have hv : verbose.toNat ≤ 1 := Bool.toNat_le verbose
  simp only [reservedClear, Bool.and_eq_true, beq_iff_eq, ← BitVec.toNat_inj, BitVec.extractLsb'_toNat,
    commandWord_toNat hop hk, Nat.shiftRight_eq_div_pow, BitVec.toNat_ofNat, BitVec.ofNat_eq_ofNat]
  omega

theorem opField_commandWord : opField (commandWord op keylen verbose) = BitVec.ofNat 4 op := by
  rw [opField, ← BitVec.toNat_inj, BitVec.extractLsb'_toNat, commandWord_toNat hop hk, BitVec.toNat_ofNat,
    Nat.shiftRight_zero]
  omega

theorem keylenField_commandWord : keylenField (commandWord op keylen verbose) = keylen := by
  have hv : verbose.toNat ≤ 1 := Bool.toNat_le verbose
  rw [keylenField, BitVec.extractLsb'_toNat, commandWord_toNat hop hk, Nat.shiftRight_eq_div_pow]
  omega

theorem verboseField_commandWord : verboseField (commandWord op keylen verbose) = verbose := by
  rw [verboseField, BitVec.getLsbD, commandWord_toNat hop hk, Nat.testBit_eq_decide_div_mod_eq,
    show (op + 2 ^ 8 * keylen + 2 ^ 16 * verbose.toNat) / 2 ^ 16 % 2 = verbose.toNat by
      have hv : verbose.toNat ≤ 1 := Bool.toNat_le verbose
      omega]
  cases verbose <;> rfl

end

/-- A word with clear reserved bits is the command word of its fields. -/
theorem commandWord_fields {w : Word} (h : reservedClear w = true) :
    commandWord (opField w).toNat (keylenField w) (verboseField w) = w := by
  have bit16 : (w.getLsbD 16).toNat = w.toNat / 2 ^ 16 % 2 := by
    rw [BitVec.getLsbD, Nat.toNat_testBit]
  have hk : keylenField w < 64 := (w.extractLsb' 8 6).isLt
  simp only [reservedClear, Bool.and_eq_true, beq_iff_eq, ← BitVec.toNat_inj, BitVec.extractLsb'_toNat,
    Nat.shiftRight_eq_div_pow, BitVec.toNat_ofNat, BitVec.ofNat_eq_ofNat] at h
  rw [← BitVec.toNat_inj, commandWord_toNat (opField w).isLt hk, verboseField, bit16, opField, keylenField,
    BitVec.extractLsb'_toNat, BitVec.extractLsb'_toNat, Nat.shiftRight_eq_div_pow, Nat.shiftRight_eq_div_pow]
  omega

/-! ### The decoder and the encoder -/

/-- What a word must pass for the decoder to answer a command (30_encoding.md R95), given the command word's fields. -/
theorem decode_commandWord {op keylen : Nat} {verbose : Bool} {i : Instr} (hop : op < 16) (hk : keylen < 64)
    (hi : opcodeMap (BitVec.ofNat 4 op) keylen verbose = some i)
    (keylenAllowed : ¬ (keylen ≠ 0 ∧ BitVec.ofNat 4 op ≠ 0x1 ∧ BitVec.ofNat 4 op ≠ 0x2))
    (verboseAllowed : ¬ (verbose = true ∧ BitVec.ofNat 4 op ≠ 0x9)) :
    decode (commandWord op keylen verbose) = .command i := by
  simp only [decode, reservedClear_commandWord hop hk, opField_commandWord hop hk, keylenField_commandWord hop hk,
    verboseField_commandWord hop hk, hi, if_neg keylenAllowed, if_neg verboseAllowed, Bool.not_true,
    Bool.false_eq_true, if_false]

/-- The decoder reads back a well-formed command from its word. -/
theorem decode_encode {i : Instr} (h : i.WellFormed) : decode (encode i) = .command i := by
  have fits : ∀ {keylen}, keylenFits keylen = true → keylen < 64 := of_decide_eq_true
  cases i with
  | setkeyEnc keylen => exact decode_commandWord (by decide) (fits h) rfl (by simp) (by simp)
  | setkeyDec keylen => exact decode_commandWord (by decide) (fits h) rfl (by simp) (by simp)
  | selfTest verbose => exact decode_commandWord (by decide) (by decide) rfl (by simp) (by simp)
  | _ => exact decode_commandWord (by decide) (by decide) rfl (by simp) (by simp)

/-- With `KEYLEN` and `VERBOSE` zero where R95 requires it, the opcode map takes back the encoder. -/
theorem encode_of_opcodeMap {op : BitVec 4} {keylen : Nat} {verbose : Bool} {i : Instr} (hk : keylen < 64)
    (hi : opcodeMap op keylen verbose = some i) (keylenAllowed : ¬ (keylen ≠ 0 ∧ op ≠ 0x1 ∧ op ≠ 0x2))
    (verboseAllowed : ¬ (verbose = true ∧ op ≠ 0x9)) :
    i.WellFormed ∧ encode i = commandWord op.toNat keylen verbose := by
  have noKeylen : op.toNat ≠ 1 → op.toNat ≠ 2 → keylen = 0 := by
    intro h1 h2
    by_contra h
    exact keylenAllowed ⟨h, fun e => h1 (congrArg BitVec.toNat e), fun e => h2 (congrArg BitVec.toNat e)⟩
  have noVerbose : op.toNat ≠ 9 → verbose = false := by
    intro h9
    by_contra h
    exact verboseAllowed ⟨by simpa using h, fun e => h9 (congrArg BitVec.toNat e)⟩
  unfold opcodeMap at hi
  split at hi <;> cases hi
  case h_2 h => exact ⟨decide_eq_true hk, by rw [h, noVerbose (by omega)]; rfl⟩
  case h_3 h => exact ⟨decide_eq_true hk, by rw [h, noVerbose (by omega)]; rfl⟩
  case h_10 h => exact ⟨rfl, by rw [h, noKeylen (by omega) (by omega)]; rfl⟩
  all_goals
    next h => exact ⟨rfl, by rw [h, noKeylen (by omega) (by omega), noVerbose (by omega)]; rfl⟩

/-- A word that decodes to a command is that command's word. -/
theorem encode_of_decode {w : Word} {i : Instr} (h : decode w = .command i) : i.WellFormed ∧ encode i = w := by
  obtain ⟨reserved, opcode, keylen, verbose⟩ := decode_command h
  rw [← commandWord_fields reserved]
  exact encode_of_opcodeMap (w.extractLsb' 8 6).isLt opcode keylen verbose

end Sys2Proof.Proofs
end

section
/-!
PROOFS. The statements about the command word (30_encoding.md sections 3 and 4).
-/

namespace Sys2Proof.Proofs

open Sys2Proof.Machine Sys2Proof.Claims

/-- Settles O1: each field of the encoder's word is what the decoder reads, and the checks of R95 pass. -/
theorem decodeReadsEveryEncodedCommand : Obligations.DecodeReadsEveryEncodedCommand := by
  unfold Obligations.DecodeReadsEveryEncodedCommand
  exact fun i h => decode_encode h

/-- Settles O2: the fields cover the word, and the checks of R95 leave no freedom in those the command does not name. -/
theorem everyCommandHasOneWord : Obligations.EveryCommandHasOneWord := by
  unfold Obligations.EveryCommandHasOneWord
  exact fun w i h => encode_of_decode h

/-- Settles O4: each word is the encoder's word of its command. -/
theorem exampleWordsDecode : Obligations.ExampleWordsDecode := by
  unfold Obligations.ExampleWordsDecode
  exact ⟨decode_encode (i := .setkeyEnc 16) rfl, decode_encode (i := .setkeyEnc 24) rfl,
    decode_encode (i := .setkeyEnc 32) rfl, decode_encode (i := .setkeyDec 16) rfl,
    decode_encode (i := .setkeyEnc 20) rfl, decode_encode (i := .ecbEnc) rfl, decode_encode (i := .cfbDec) rfl,
    decode_encode (i := .selfTest true) rfl, decode_encode (i := .clearCtx) rfl⟩

end Sys2Proof.Proofs
end

section
/-!
SUPPORT. What the body of a command can do, said once, and from it all that a command may change (10_state.md sections
2 to 4).
-/

namespace Sys2Proof.Proofs

open Sys2Proof.Machine Sys2Proof.Claims

/-! ### The effects -/

/-- The schedule that `SETKEY_*` of direction `d` loads (41_key_schedule.md R142, R143). -/
def keySchedule : Dir → Tables → List Column → Nat → Schedule
  | .enc => encSchedule
  | .dec => decSchedule

theorem keySchedule_nr (d : Dir) (T : Tables) (K : List Column) (keylen : Nat) :
    (keySchedule d T K keylen).nr = roundCount keylen := by
  cases d <;> rfl

theorem keySchedule_fits (d : Dir) (T : Tables) (K : Vector Column 8) {keylen : Nat} (h : keylenOk keylen = true) :
    Fits (keySchedule d T K.toList keylen) := by
  cases d with
  | enc => exact encSchedule_fits T K h
  | dec => exact decSchedule_fits T K h

/-- The commands that process a stream in `DBUF`. -/
def StreamCommand (i : Instr) : Prop := i = .cbcEnc ∨ i = .cbcDec ∨ i = .cfbEnc ∨ i = .cfbDec

/-- What the body of command `i` can make of `s`. -/
inductive BodyEffect (i : Instr) (s : State) : State → Prop where
  /-- `NOP`, or a data command that fails a check. -/
  | keep : BodyEffect i s s
  | load {d : Dir} {keylen : Nat} (hi : i = setkeyCommand d keylen) (hk : keylenOk keylen = true) :
      BodyEffect i s (loadContext d (keySchedule d s.cfg.tables s.key.toList keylen) s)
  | drop {d : Dir} {keylen : Nat} (hi : i = setkeyCommand d keylen) (hk : ¬ keylenOk keylen = true) :
      BodyEffect i s (dropContext s)
  | clear (hi : i = .clearCtx) : BodyEffect i s (clearContext s)
  | output {b : Block} (hi : i = .ecbEnc ∨ i = .ecbDec) : BodyEffect i s (setDout b s)
  /-- Only CFB128 moves `OFFSET`. -/
  | stream {t : State} (hi : StreamCommand i) (frame : StreamFrame s t)
      (offset : (∃ d, i = cbcCommand d) → t.offset = s.offset) : BodyEffect i s t
  | selfTest {verbose : Bool} (hi : i = .selfTest verbose) :
      BodyEffect i s (writeStResult (selfTestBits s.cfg.tables) s)

theorem bodyOf_cbcCommand (d : Dir) (s : State) :
    bodyOf (cbcCommand d) s = if cbcChecks d s = none then forUpTo (cbcUnit d) (s.len.toNat / 16) s else s := by
  cases d <;> rfl

theorem bodyOf_cfbCommand (enc : Bool) (s : State) :
    bodyOf (cfbCommand enc) s = if cfbChecks s = none then forUpTo (cfbByte enc) s.len.toNat s else s := by
  cases enc <;> rfl

theorem cbcUnit_offset (d : Dir) (j : Nat) (s : State) : (cbcUnit d j s).offset = s.offset := by
  cases d with
  | enc => simp [cbcUnit, cbcEncUnit]
  | dec => simp [cbcUnit, cbcDecUnit]

theorem forUpTo_cbcUnit_offset (d : Dir) (n : Nat) (s : State) : (forUpTo (cbcUnit d) n s).offset = s.offset :=
  forUpTo_invariant (P := fun t => t.offset = s.offset) rfl fun j t _ ht => (cbcUnit_offset d j t).trans ht

theorem bodyOf_cbcCommand_offset (d : Dir) (s : State) : (bodyOf (cbcCommand d) s).offset = s.offset := by
  rw [bodyOf_cbcCommand]
  split
  · exact forUpTo_cbcUnit_offset d _ s
  · rfl

theorem bodyOf_effect (i : Instr) (s : State) : BodyEffect i s (bodyOf i s) := by
  have stream (hi : StreamCommand i) : BodyEffect i s (bodyOf i s) :=
    .stream hi (bodyOf_stream s hi) (by rintro ⟨d, rfl⟩; exact bodyOf_cbcCommand_offset d s)
  cases i with
  | nop => exact .keep
  | clearCtx => exact .clear rfl
  | selfTest verbose => exact .selfTest rfl
  | setkeyEnc keylen =>
    simp only [bodyOf]
    split
    next hk => exact .load (d := .enc) rfl hk
    next hk => exact .drop (d := .enc) rfl hk
  | setkeyDec keylen =>
    simp only [bodyOf]
    split
    next hk => exact .load (d := .dec) rfl hk
    next hk => exact .drop (d := .dec) rfl hk
  | ecbEnc => simp only [bodyOf]; split; exacts [.output (.inl rfl), .keep]
  | ecbDec => simp only [bodyOf]; split; exacts [.output (.inr rfl), .keep]
  | cbcEnc => exact stream (.inl rfl)
  | cbcDec => exact stream (.inr (.inl rfl))
  | cfbEnc => exact stream (.inr (.inr (.inl rfl)))
  | cfbDec => exact stream (.inr (.inr (.inr rfl)))

/-- A command is one of these effects and then its completion. -/
theorem exec_effect {i : Instr} {s t : State} (h : exec i s = .next t) :
    ∃ u, BodyEffect i s u ∧ t = finish (codeOf i s) { u with faults := faultsOf (codeOf i s) ++ u.faults } := by
  rw [exec_eq] at h
  exact ⟨_, bodyOf_effect i s, (next_inj h).symm⟩

/-! ### The frames -/

/-- The fields that some body writes; every other field is the same in both states. -/
def BodyFrame (s t : State) : Prop :=
  t = { s with
    ctxValid := t.ctxValid
    ctxDir := t.ctxDir
    nr := t.nr
    rk := t.rk
    offset := t.offset
    stPass := t.stPass
    stRan := t.stRan
    key := t.key
    iv := t.iv
    dout := t.dout
    dbuf := t.dbuf }

section

variable {i : Instr} {s t : State} (h : BodyEffect i s t)
include h

theorem BodyEffect.frame : BodyFrame s t := by
  cases h with
  | stream hi frame offset =>
    unfold StreamFrame at frame
    rw [frame]
    rfl
  | _ => rfl

theorem BodyEffect.memory (hi : ¬ StreamCommand i) : t.iv = s.iv ∧ t.dbuf = s.dbuf := by
  cases h with
  | stream hstream frame offset => exact absurd hstream hi
  | _ => exact ⟨rfl, rfl⟩

theorem BodyEffect.offset (hi : ∀ enc, i ≠ cfbCommand enc) : t.offset = s.offset := by
  cases h with
  | stream hstream frame offset =>
    obtain hi' | hi' | hi' | hi' := hstream
    · exact offset ⟨.enc, hi'⟩
    · exact offset ⟨.dec, hi'⟩
    · exact absurd hi' (hi true)
    · exact absurd hi' (hi false)
  | _ => rfl

theorem BodyEffect.dout (hi : ¬ (i = .ecbEnc ∨ i = .ecbDec)) : t.dout = s.dout := by
  cases h with
  | output hecb => exact absurd hecb hi
  | stream hstream frame offset => exact (congrArg State.dout frame :)
  | _ => rfl

theorem BodyEffect.key (hi : i ≠ .clearCtx) : t.key = s.key := by
  cases h with
  | clear hclear => exact absurd hclear hi
  | stream hstream frame offset => exact (congrArg State.key frame :)
  | _ => rfl

theorem BodyEffect.stResult (hi : ∀ verbose, i ≠ .selfTest verbose) : t.stPass = s.stPass ∧ t.stRan = s.stRan := by
  cases h with
  | selfTest htest => exact absurd htest (hi _)
  | stream hstream frame offset => exact ⟨(congrArg State.stPass frame :), (congrArg State.stRan frame :)⟩
  | _ => exact ⟨rfl, rfl⟩

end

theorem BodyFrame.unwritten {s t : State} (h : BodyFrame s t) :
    (t.ie = s.ie ∧ t.ovr = s.ovr ∧ t.len = s.len ∧ t.src = s.src ∧ t.dst = s.dst ∧ t.din = s.din) ∧
      t.cfg = s.cfg ∧ t.epoch = s.epoch ∧ t.draws = s.draws ∧ t.resp = s.resp ∧ t.inputs = s.inputs := by
  unfold BodyFrame at h
  rw [h]
  exact ⟨⟨rfl, rfl, rfl, rfl, rfl, rfl⟩, rfl, rfl, rfl, rfl, rfl⟩

/-- The engine's turn writes what a body writes, `ERR`, `SEQ` and `DONE`, and adds to the recorded faults. -/
def EngineFrame (s t : State) : Prop :=
  BodyFrame { s with err := t.err, seq := t.seq, done := t.done, faults := t.faults } t ∧ s.faults <:+ t.faults

theorem exec_frame {i : Instr} {s t : State} (h : exec i s = .next t) : EngineFrame s t := by
  obtain ⟨u, effect, rfl⟩ := exec_effect h
  have frame := effect.frame
  unfold BodyFrame at frame
  rw [frame]
  exact ⟨rfl, List.suffix_append _ _⟩

theorem engineTurn_frame {s t : State} (h : engineTurn s = .next t) : EngineFrame s t := by
  obtain ⟨-, e⟩ | ⟨w, why, -, -, e⟩ | ⟨w, i, -, -, e⟩ := engineTurn_cases s <;> rw [e] at h
  · exact next_inj h ▸ ⟨rfl, List.suffix_rfl⟩
  · exact next_inj h ▸ ⟨rfl, List.suffix_rfl⟩
  · exact exec_frame h

end Sys2Proof.Proofs
end

section
/-!
PROOFS. The statement about the registers that commands write (10_state.md sections 1 to 4).
-/

namespace Sys2Proof.Proofs

open Sys2Proof.Machine Sys2Proof.Claims

/-- Settles O41: the effects a body can have, each the one of the commands that the statement excepts. -/
theorem commandsWriteOnlyTheirRegisters : Obligations.CommandsWriteOnlyTheirRegisters := by
  unfold Obligations.CommandsWriteOnlyTheirRegisters
  intro i s t h
  obtain ⟨u, effect, rfl⟩ := exec_effect h
  obtain ⟨registers, surroundings⟩ := effect.frame.unwritten
  refine ⟨registers, surroundings, ⟨rfl, rfl⟩, fun h₁ h₂ h₃ h₄ => effect.memory ?_, fun h₁ h₂ => effect.offset ?_,
    fun h₁ h₂ => effect.dout (not_or.2 ⟨h₁, h₂⟩), effect.key, effect.stResult⟩
  · rintro (hi | hi | hi | hi) <;> contradiction
  · rintro (_ | _) <;> assumption

end Sys2Proof.Proofs
end

section
/-!
SUPPORT. What a host access can do, said once (20_memory.md R62 to R71), and from it what it leaves unchanged.
-/

namespace Sys2Proof.Proofs

open Sys2Proof.Machine Sys2Proof.Claims

/-! ### The effects -/

/-- What the host access `a` can make of `s`. -/
inductive AccessEffect (a : Access) (s : State) : State → Prop where
  | read {offset size draws : Nat} {resp : Option Response} {faults : List HostFault} (ha : a = .read offset size)
      (recorded : s.faults <:+ faults) :
      AccessEffect a s { s with resp := resp, draws := draws, faults := faults }
  /-- A write that R70 drops. -/
  | dropped {offset size : Nat} {v : Word} (ha : a = .write offset size v) (hb : busy s = true) :
      AccessEffect a s (dropWrite s)
  | register {offset : Nat} {v : Word} (ha : a = .write offset 4 v)
      (hd : busy s = false ∨ writeDroppedWhileBusy (regAt offset) = false) :
      AccessEffect a s (respondOkay none (regWrite (regAt offset) v s))
  | window {offset size : Nat} {v : Word} (ha : a = .write offset size v) (hb : busy s = false)
      (hl : DbufLegal s offset size) :
      AccessEffect a s (respondOkay none (dbufWrite s (offset - 0x1000) size v))
  /-- A write that no rule accepts. -/
  | refused {offset size : Nat} {v : Word} (ha : a = .write offset size v) (hr : regLegal offset size = false)
      (hl : ¬ DbufLegal s offset size) : AccessEffect a s (respondError a none s)

theorem hostRead_faults (offset size : Nat) (s : State) : s.faults <:+ (hostRead offset size s).faults := by
  obtain ⟨-, e⟩ | ⟨-, -, e⟩ | ⟨-, -, e⟩ | ⟨-, -, e⟩ := hostRead_cases offset size s <;> rw [e]
  · split <;> exact List.suffix_rfl
  · exact List.suffix_cons _ _
  · split <;> exact List.suffix_rfl
  · exact List.suffix_cons _ _

theorem hostAccess_effect (a : Access) (s : State) : AccessEffect a s (hostAccess a s) := by
  cases a with
  | read offset size =>
    rw [hostAccess, hostRead_frame]
    exact .read rfl (hostRead_faults offset size s)
  | write offset size v =>
    rw [hostAccess]
    obtain ⟨hr, e⟩ | ⟨-, hl, e⟩ | ⟨hr, hl, e⟩ := hostWrite_cases offset size v s <;> rw [e]
    · obtain ⟨-, rfl, -⟩ := (regLegal_iff offset size).1 hr
      split
      next hdrop => exact .dropped rfl (Bool.and_eq_true_iff.1 hdrop).1
      next hdrop => exact .register rfl (Bool.and_eq_false_iff.1 (Bool.eq_false_of_not_eq_true hdrop))
    · split
      next hb => exact .dropped rfl hb
      next hb => exact .window rfl (Bool.eq_false_of_not_eq_true hb) (dbufLegal_eq_true.1 hl)
    · exact .refused rfl hr (dbufLegal_eq_false.1 hl)

/-! ### The frame -/

/-- The fields that some access writes; every other field is the same in both states. -/
def AccessFrame (s t : State) : Prop :=
  t = { s with
    ie := t.ie
    seq := t.seq
    done := t.done
    ovr := t.ovr
    len := t.len
    src := t.src
    dst := t.dst
    offset := t.offset
    key := t.key
    iv := t.iv
    din := t.din
    dbuf := t.dbuf
    draws := t.draws
    resp := t.resp
    faults := t.faults }

theorem regWrite_frame (r : Reg) (v : Word) (s : State) : AccessFrame s (regWrite r v s) := by
  cases r <;> rfl

theorem AccessEffect.frame {a : Access} {s t : State} (h : AccessEffect a s t) : AccessFrame s t := by
  unfold AccessFrame
  cases h with
  | @register offset v ha hd =>
    have frame := regWrite_frame (regAt offset) v s
    unfold AccessFrame at frame
    rw [frame]
    rfl
  | window ha hb hl =>
    rw [dbufWrite_frame]
    rfl
  | _ => rfl

theorem AccessFrame.unwritten {s t : State} (h : AccessFrame s t) :
    t.err = s.err ∧ SameContext s t ∧ t.stPass = s.stPass ∧ t.stRan = s.stRan ∧ t.dout = s.dout ∧ t.cfg = s.cfg ∧
      t.epoch = s.epoch ∧ t.inputs = s.inputs := by
  unfold AccessFrame at h
  rw [h]
  exact ⟨rfl, sameContext_refl s, rfl, rfl, rfl, rfl, rfl, rfl⟩

theorem regWrite_dbuf (r : Reg) (v : Word) (s : State) : (regWrite r v s).dbuf = s.dbuf := by
  cases r <;> rfl

theorem regWrite_faults (r : Reg) (v : Word) (s : State) : (regWrite r v s).faults = s.faults := by
  cases r <;> rfl

/-- No access takes a recorded fault away. -/
theorem AccessEffect.faults {a : Access} {s t : State} (h : AccessEffect a s t) : s.faults <:+ t.faults := by
  cases h with
  | read ha recorded => exact recorded
  | refused ha hr hl => exact List.suffix_cons _ _
  | register ha hd => rw [respondOkay_faults, regWrite_faults]
  | window ha hb hl => rw [respondOkay_faults, dbufWrite_frame]
  | dropped ha hb => exact List.suffix_rfl

/-! ### `OVR` -/

theorem regWrite_ovr (r : Reg) (v : Word) (s : State) :
    (regWrite r v s).ovr = if r = .status then s.ovr && !v.getLsbD 2 else s.ovr := by
  cases r <;> rfl

/-- What an access makes of `OVR` (10_state.md R26): a write to a busy block may set it, and a write to `STATUS` may
clear it. -/
theorem AccessEffect.ovr {a : Access} {s t : State} (h : AccessEffect a s t) :
    t.ovr = s.ovr ∨ (t.ovr = true ∧ busy s = true ∧ ∃ offset size v, a = .write offset size v) ∨
      ∃ v, a = .write 0x008 4 v ∧ t.ovr = (s.ovr && !v.getLsbD 2) := by
  cases h with
  | dropped ha hb => exact .inr (.inl ⟨rfl, hb, _, _, _, ha⟩)
  | @register offset v ha hd =>
    rw [respondOkay_ovr, regWrite_ovr]
    split
    next hstatus => exact .inr (.inr ⟨v, regAt_status hstatus ▸ ha, rfl⟩)
    next => exact .inl rfl
  | window ha hb hl =>
    rw [respondOkay_ovr, dbufWrite_frame]
    exact .inl rfl
  | _ => exact .inl rfl

end Sys2Proof.Proofs
end

section
/-!
SUPPORT. What each kind of step does to the invariants of Safety.lean: the memory's form, the status fields and the
context.
-/

namespace Sys2Proof.Proofs

open Sys2Proof.Machine Sys2Proof.Claims Sys2Proof.Safety

/-! ### The canonical form of `DBUF` (10_state.md R40) -/

theorem cbcUnit_memoryWf (d : Dir) {j : Nat} {s : State} (hfit : s.dst.toNat + 16 * j + 16 ≤ s.cfg.dbufSize)
    (hm : memoryWf s) : memoryWf (cbcUnit d j s) := by
  have block (b : Block) : Memory.wf s.cfg.dbufSize (memWriteBlock s (dstAddr s (16 * j)) b).dbuf = true :=
    memWrite_wf hfit hm
  cases d with
  | enc => simpa [memoryWf, cbcUnit, cbcEncUnit] using block _
  | dec => simpa [memoryWf, cbcUnit, cbcDecUnit] using block _

theorem cfbByte_memoryWf (enc : Bool) {i : Nat} {s : State} (hfit : s.dst.toNat + i < s.cfg.dbufSize)
    (hm : memoryWf s) : memoryWf (cfbByte enc i s) := by
  have byte (v : Byte) : Memory.wf s.cfg.dbufSize (Memory.set s.dbuf (dstAddr s i) v) = true := Memory.wf_set hfit hm
  cases enc with
  | true =>
    rw [cfbByte, cfbEncByte, refreshKeystream_frame]
    exact byte _
  | false =>
    rw [cfbByte, cfbDecByte, refreshKeystream_frame]
    exact byte _

/-- A loop keeps the form when each of its passes does, from any state with the operands it starts with. -/
theorem forUpTo_memoryWf {body : Nat → State → State} {n : Nat} {s : State}
    (hframe : ∀ j t, StreamFrame t (body j t))
    (hpass : ∀ j t, j < n → SameOperands s t → memoryWf t → memoryWf (body j t)) (hm : memoryWf s) :
    memoryWf (forUpTo body n s) := by
  have kept : StreamFrame s (forUpTo body n s) ∧ memoryWf (forUpTo body n s) :=
    forUpTo_invariant (P := fun t => StreamFrame s t ∧ memoryWf t) ⟨StreamFrame.refl s, hm⟩
      fun j t hj ⟨frame, ht⟩ => ⟨frame.trans (hframe j t), hpass j t hj (sameOperands_of_streamFrame frame) ht⟩
  exact kept.2

theorem bodyOf_cbcCommand_memoryWf (d : Dir) {s : State} (hm : memoryWf s) : memoryWf (bodyOf (cbcCommand d) s) := by
  rw [bodyOf_cbcCommand]
  split
  next passed =>
    obtain ⟨-, -, -, hdst⟩ := cbcChecks_none.1 passed
    refine forUpTo_memoryWf (cbcUnit_frame d) (fun j t hj same ht => cbcUnit_memoryWf d ?_ ht) hm
    obtain ⟨hcfg, -, -, -, hdst'⟩ := same
    rw [hcfg, hdst']
    omega
  next => exact hm

theorem bodyOf_cfbCommand_memoryWf (enc : Bool) {s : State} (hm : memoryWf s) :
    memoryWf (bodyOf (cfbCommand enc) s) := by
  rw [bodyOf_cfbCommand]
  split
  next passed =>
    obtain ⟨-, -, hdst⟩ := cfbChecks_none.1 passed
    refine forUpTo_memoryWf (cfbByte_frame enc) (fun j t hj same ht => cfbByte_memoryWf enc ?_ ht) hm
    obtain ⟨hcfg, -, -, -, hdst'⟩ := same
    rw [hcfg, hdst']
    omega
  next => exact hm

theorem memoryWf_congr {s t : State} (hcfg : t.cfg = s.cfg) (hdbuf : t.dbuf = s.dbuf) (hm : memoryWf s) :
    memoryWf t := by
  rwa [memoryWf, hcfg, hdbuf]

theorem bodyOf_memoryWf (i : Instr) {s : State} (hm : memoryWf s) : memoryWf (bodyOf i s) := by
  by_cases hi : StreamCommand i
  · obtain rfl | rfl | rfl | rfl := hi
    · exact bodyOf_cbcCommand_memoryWf .enc hm
    · exact bodyOf_cbcCommand_memoryWf .dec hm
    · exact bodyOf_cfbCommand_memoryWf true hm
    · exact bodyOf_cfbCommand_memoryWf false hm
  · have effect := bodyOf_effect i s
    obtain ⟨-, hcfg, -⟩ := effect.frame.unwritten
    obtain ⟨-, hdbuf⟩ := effect.memory hi
    exact memoryWf_congr hcfg hdbuf hm

theorem exec_memoryWf {i : Instr} {s t : State} (hm : memoryWf s) (h : exec i s = .next t) : memoryWf t := by
  rw [exec_eq] at h
  rw [← next_inj h]
  exact bodyOf_memoryWf i hm

theorem hostAccess_memoryWf (a : Access) {s : State} (hm : memoryWf s) : memoryWf (hostAccess a s) := by
  have effect := hostAccess_effect a s
  obtain ⟨-, -, -, -, -, hcfg, -⟩ := effect.frame.unwritten
  rw [memoryWf, hcfg]
  generalize hostAccess a s = t at effect
  cases effect with
  | register ha hd => rwa [respondOkay_dbuf, regWrite_dbuf]
  | window ha hb hl =>
    obtain ⟨-, -, -, -, hfit⟩ := hl
    exact dbufWrite_wf hfit hm
  | _ => exact hm

theorem resetInput_memoryWf (s : State) : memoryWf (resetInput s) := Memory.wf_nil _

/-! ### The status fields (10_state.md R26, R30, R37) -/

/-- The invariants of the status fields together. -/
def StatusLegal (s : State) : Prop := roundCountLegal s ∧ doneNotBusy s ∧ passNeedsRun s

theorem roundCountLegal_of_sameContext {s t : State} (h : SameContext s t) (hs : roundCountLegal s) :
    roundCountLegal t := by
  obtain ⟨hvalid, -, hnr, -⟩ := h
  rwa [roundCountLegal, hvalid, hnr]

theorem roundCountLegal_loadContext (d : Dir) (T : Tables) (K : List Column) {keylen : Nat}
    (hk : keylenOk keylen = true) (s : State) : roundCountLegal (loadContext d (keySchedule d T K keylen) s) := by
  rw [roundCountLegal, loadContext_nr, keySchedule_nr]
  obtain rfl | rfl | rfl := (keylenOk_iff keylen).1 hk <;> exact ⟨by decide, fun _ => by decide⟩

theorem BodyEffect.roundCountLegal {i : Instr} {s t : State} (h : BodyEffect i s t) (hs : roundCountLegal s) :
    roundCountLegal t := by
  cases h with
  | load hi hk => exact roundCountLegal_loadContext _ _ _ hk s
  | drop hi hk =>
    obtain ⟨hnr, -⟩ := hs
    exact ⟨hnr, nofun⟩
  | clear hi => exact ⟨.inl rfl, nofun⟩
  | stream hi frame offset => exact roundCountLegal_of_sameContext (sameContext_of_streamFrame frame) hs
  | _ => exact hs

theorem passNeedsRun_congr {s t : State} (hpass : t.stPass = s.stPass) (hran : t.stRan = s.stRan)
    (hs : passNeedsRun s) : passNeedsRun t := by
  rwa [passNeedsRun, hpass, hran]

theorem BodyEffect.passNeedsRun {i : Instr} {s t : State} (h : BodyEffect i s t) (hs : passNeedsRun s) :
    passNeedsRun t := by
  cases h with
  | selfTest hi => exact nofun
  | stream hi frame offset =>
    exact passNeedsRun_congr (congrArg State.stPass frame :) (congrArg State.stRan frame :) hs
  | _ => exact hs

theorem exec_statusLegal {i : Instr} {s t : State} (hs : StatusLegal s) (h : exec i s = .next t) : StatusLegal t := by
  obtain ⟨u, effect, rfl⟩ := exec_effect h
  obtain ⟨rounds, -, pass⟩ := hs
  exact ⟨effect.roundCountLegal rounds, fun _ => rfl, effect.passNeedsRun pass⟩

theorem regWrite_doneNotBusy (r : Reg) (v : Word) {s : State} (hs : doneNotBusy s) : doneNotBusy (regWrite r v s) := by
  cases r with
  | cmd => exact nofun
  | status => exact fun hdone => hs (Bool.and_eq_true_iff.1 hdone).1
  | _ => exact hs

theorem AccessEffect.doneNotBusy {a : Access} {s t : State} (h : AccessEffect a s t) (hs : doneNotBusy s) :
    doneNotBusy t := by
  cases h with
  | register ha hd => exact regWrite_doneNotBusy _ _ hs
  | window ha hb hl =>
    rw [dbufWrite_frame]
    exact hs
  | _ => exact hs

theorem hostAccess_statusLegal (a : Access) {s : State} (hs : StatusLegal s) : StatusLegal (hostAccess a s) := by
  have effect := hostAccess_effect a s
  obtain ⟨-, -, hpass, hran, -⟩ := effect.frame.unwritten
  obtain ⟨rounds, done, pass⟩ := hs
  exact ⟨roundCountLegal_of_sameContext (hostAccess_sameContext a s) rounds, effect.doneNotBusy done,
    passNeedsRun_congr hpass hran pass⟩

theorem resetInput_statusLegal (s : State) : StatusLegal (resetInput s) := ⟨⟨.inl rfl, nofun⟩, nofun, fun _ => rfl⟩

/-! ### The context is a schedule (10_state.md R30, R32) -/

theorem contextScheduled_iff (s : State) :
    contextScheduled s ↔ (s.ctxValid = true → ∃ (K : Vector Column 8) (keylen : Nat), keylenOk keylen = true ∧
      s.nr.toNat = roundCount keylen ∧ ∀ r, r ≤ roundCount keylen →
        slot s.rk r = (keySchedule s.ctxDir s.cfg.tables K.toList keylen).keys.getD r Block.zero) := by
  unfold contextScheduled
  cases s.ctxDir <;> rfl

theorem contextScheduled_congr {s t : State} (h : SameContext s t) (hcfg : t.cfg = s.cfg)
    (hs : contextScheduled s) : contextScheduled t := by
  obtain ⟨hvalid, hdir, hnr, hrk⟩ := h
  rw [contextScheduled_iff] at hs ⊢
  rwa [hvalid, hdir, hnr, hrk, hcfg]

theorem contextScheduled_of_not_ctxValid {s : State} (h : s.ctxValid = false) : contextScheduled s :=
  fun hvalid => absurd (h.symm.trans hvalid) nofun

theorem contextScheduled_loadContext (d : Dir) {keylen : Nat} (hk : keylenOk keylen = true) (s : State) :
    contextScheduled (loadContext d (keySchedule d s.cfg.tables s.key.toList keylen) s) := by
  have fits := keySchedule_fits d s.cfg.tables s.key hk
  have rounds := keySchedule_nr d s.cfg.tables s.key.toList keylen
  refine (contextScheduled_iff _).2 fun _ => ⟨s.key, keylen, hk, ?_, fun r hr => ?_⟩
  · rw [loadContext_nr_toNat fits, rounds]
  · exact loadContext_slot fits d s (rounds ▸ hr)

theorem BodyEffect.contextScheduled {i : Instr} {s t : State} (h : BodyEffect i s t) (hs : contextScheduled s) :
    contextScheduled t := by
  cases h with
  | load hi hk => exact contextScheduled_loadContext _ hk s
  | drop hi hk => exact contextScheduled_of_not_ctxValid rfl
  | clear hi => exact contextScheduled_of_not_ctxValid rfl
  | stream hi frame offset =>
    exact contextScheduled_congr (sameContext_of_streamFrame frame) (congrArg State.cfg frame :) hs
  | _ => exact hs

theorem exec_contextScheduled {i : Instr} {s t : State} (hs : contextScheduled s) (h : exec i s = .next t) :
    contextScheduled t := by
  obtain ⟨u, effect, rfl⟩ := exec_effect h
  exact effect.contextScheduled hs

theorem hostAccess_contextScheduled (a : Access) {s : State} (hs : contextScheduled s) :
    contextScheduled (hostAccess a s) := by
  obtain ⟨-, context, -, -, -, hcfg, -⟩ := (hostAccess_effect a s).frame.unwritten
  exact contextScheduled_congr context hcfg hs

theorem resetInput_contextScheduled (s : State) : contextScheduled (resetInput s) :=
  contextScheduled_of_not_ctxValid rfl

end Sys2Proof.Proofs
end

section
/-!
PROOFS. The invariants (10_state.md sections 2, 3 and 5): every step keeps them, and reset meets them.
-/

namespace Sys2Proof.Proofs

open Sys2Proof.Machine Sys2Proof.Claims Sys2Proof.Safety

/-- Settles O51: only a stream command and a window write write `DBUF`, each after a check of its range. -/
theorem stepKeepsMemoryForm : Obligations.StepKeepsMemoryForm := by
  unfold Obligations.StepKeepsMemoryForm
  exact fun s t hs h => step_invariant (fun _ _ hm => hm) (fun _ hm => hm) (fun _ _ _ => exec_memoryWf)
    (fun a _ => hostAccess_memoryWf a) (fun s _ => resetInput_memoryWf s) hs h

/-- Settles O52: `NR` changes with the context only, `DONE` is set by a completion, which leaves the block idle, and
`PASS` with `ST_RAN`. -/
theorem stepKeepsStatusLegal : Obligations.StepKeepsStatusLegal := by
  unfold Obligations.StepKeepsStatusLegal
  refine fun s t hs h => step_invariant (P := StatusLegal) (fun _ _ hs => hs) (fun s hs => ?_)
    (fun _ _ _ => exec_statusLegal) (fun a _ => hostAccess_statusLegal a) (fun s _ => resetInput_statusLegal s) hs h
  obtain ⟨rounds, -, pass⟩ := hs
  exact ⟨rounds, fun _ => rfl, pass⟩

/-- Settles O53: a context is loaded as a schedule of the key register's key, and no other step changes a valid one. -/
theorem stepKeepsContextScheduled : Obligations.StepKeepsContextScheduled := by
  unfold Obligations.StepKeepsContextScheduled
  exact fun s t hs h => step_invariant (fun _ _ hs => hs) (fun _ hs => hs) (fun _ _ _ => exec_contextScheduled)
    (fun a _ => hostAccess_contextScheduled a) (fun s _ => resetInput_contextScheduled s) hs h

/-- Settles O54: the reset state holds no written byte and no valid context. -/
theorem resetMeetsTheInvariants : Obligations.ResetMeetsTheInvariants := by
  unfold Obligations.ResetMeetsTheInvariants
  exact ⟨reset_memory_wf, ⟨.inl rfl, nofun⟩, nofun, fun _ => rfl, contextScheduled_of_not_ctxValid rfl, rfl⟩

end Sys2Proof.Proofs
end

section
/-!
SUPPORT. The bits of the words the host reads from `STATUS` and `ST_RESULT` (10_state.md R26, R37).
-/

namespace Sys2Proof.Proofs

open Sys2Proof.Machine Sys2Proof.Claims

/-! ### One field of a word -/

theorem extractLsb'_eq {w : Word} {start len : Nat} {x : BitVec len}
    (h : ∀ i, i < len → w.getLsbD (start + i) = x.getLsbD i) : w.extractLsb' start len = x := by
  refine BitVec.eq_of_getLsbD_eq fun i hi => ?_
  rw [BitVec.getLsbD_extractLsb', decide_eq_true hi, Bool.true_and, h i hi]

section

variable {i : Nat} (hi : i < 32)
include hi

theorem getLsbD_bitAt (b : Bool) (n : Nat) : (bitAt b n).getLsbD i = (b && decide (i = n)) := by
  cases b with
  | false => simp [bitAt]
  | true =>
    rw [bitAt, Bool.toNat_true, ← BitVec.twoPow_eq, BitVec.getLsbD_twoPow, Bool.true_and, Bool.and_eq_decide]
    exact decide_eq_decide.2 (by rw [decide_eq_true_iff, decide_eq_true_iff]; omega)

theorem getLsbD_fieldAt {w : Nat} (x : BitVec w) (n : Nat) :
    (x.setWidth 32 <<< n).getLsbD i = (decide (n ≤ i) && x.getLsbD (i - n)) := by
  have below : i - n < 32 := by omega
  rw [BitVec.getLsbD_shiftLeft, BitVec.getLsbD_setWidth, decide_eq_true hi, decide_eq_true below, Bool.true_and,
    Bool.true_and, ← decide_not]
  exact congrArg (· && _) (decide_eq_decide.2 Nat.not_lt)

theorem getLsbD_statusWord (s : State) :
    (statusWord s).getLsbD i = ((busy s && decide (i = 0)) || (s.done && decide (i = 1)) ||
      (s.ovr && decide (i = 2)) || (decide (4 ≤ i) && (errNumber s.err).getLsbD (i - 4)) ||
      (s.ctxValid && decide (i = 8)) || (dirBit s.ctxDir && decide (i = 9)) ||
      (decide (12 ≤ i) && s.nr.getLsbD (i - 12))) := by
  simp only [statusWord, BitVec.getLsbD_or, getLsbD_bitAt hi, getLsbD_fieldAt hi]

theorem getLsbD_stResultWord (s : State) :
    (stResultWord s).getLsbD i = (s.stPass.getLsbD i || (s.stRan && decide (i = 16))) := by
  simp only [stResultWord, BitVec.getLsbD_or, getLsbD_bitAt hi, BitVec.getLsbD_setWidth, hi, decide_true, Bool.true_and]

end

/-! ### `STATUS` -/

section

variable (s : State)

theorem statusWord_err : (statusWord s).extractLsb' 4 4 = errNumber s.err := by
  refine extractLsb'_eq fun i hi => ?_
  rw [getLsbD_statusWord (by omega)]
  interval_cases i <;> simp

theorem statusWord_nr : (statusWord s).extractLsb' 12 4 = s.nr := by
  refine extractLsb'_eq fun i hi => ?_
  rw [getLsbD_statusWord (by omega)]
  interval_cases i <;> simp

/-- Bits [11:10] are reserved. -/
theorem statusWord_reserved : (statusWord s).extractLsb' 10 2 = 0 := by
  refine extractLsb'_eq fun i hi => ?_
  rw [getLsbD_statusWord (by omega)]
  interval_cases i <;> simp

/-- Bits [31:16] are reserved. -/
theorem statusWord_reserved_high : (statusWord s).extractLsb' 16 16 = 0 := by
  refine extractLsb'_eq fun i hi => ?_
  rw [getLsbD_statusWord (by omega)]
  interval_cases i <;> simp

/-! ### `CTRL` -/

theorem ctrlWord_eq : ctrlWord s = BitVec.ofNat 32 s.ie.toNat := BitVec.shiftLeft_zero _

/-! ### `ST_RESULT` -/

theorem stResultWord_pass : (stResultWord s).extractLsb' 0 12 = s.stPass := by
  refine extractLsb'_eq fun i hi => ?_
  rw [getLsbD_stResultWord (by omega)]
  simp [hi, show i ≠ 16 by omega]

/-- Bits [15:12] are reserved. -/
theorem stResultWord_reserved : (stResultWord s).extractLsb' 12 4 = 0 := by
  refine extractLsb'_eq fun i hi => ?_
  rw [getLsbD_stResultWord (by omega)]
  interval_cases i <;> simp

/-- Bits [31:17] are reserved. -/
theorem stResultWord_reserved_high : (stResultWord s).extractLsb' 17 15 = 0 := by
  refine extractLsb'_eq fun i hi => ?_
  rw [getLsbD_stResultWord (by omega)]
  interval_cases i <;> simp

theorem stResultWord_ran : (stResultWord s).getLsbD 16 = s.stRan := by
  rw [getLsbD_stResultWord (by decide)]
  simp

end

end Sys2Proof.Proofs
end

section
/-!
PROOFS. The statements about the registers as the host sees them (10_state.md section 2; 20_memory.md section 3;
60_exceptions.md section 6).
-/

namespace Sys2Proof.Proofs

open Sys2Proof.Machine Sys2Proof.Claims

/-- Settles O11: bit by bit, at most one field reaches each bit. -/
theorem statusWordFields : Obligations.StatusWordFields := by
  unfold Obligations.StatusWordFields
  intro s
  have bit {i : Nat} (hi : i < 32) := getLsbD_statusWord hi s
  refine ⟨?_, (bit (by decide)).trans (by simp), (bit (by decide)).trans (by simp), (bit (by decide)).trans (by simp),
    ?_, (bit (by decide)).trans (by simp), ?_, statusWord_reserved s, statusWord_nr s, statusWord_reserved_high s⟩
  · rw [← busy_iff, bit (by decide)]
    simp
  · rw [statusWord_err]
    cases s.err <;> rfl
  · rw [bit (by decide)]
    cases s.ctxDir <;> simp [dirBit]

/-- Settles O12: the frame of a read, and the register map gives `DIN` at its offsets. -/
theorem readsHaveNoSideEffects : Obligations.ReadsHaveNoSideEffects := by
  unfold Obligations.ReadsHaveNoSideEffects
  refine ⟨fun s t offset size rest hi h => ?_, fun s w k rest _ hk hi => ?_⟩
  · rw [step_access hi, hostAccess, hostRead_frame] at h
    obtain rfl := next_inj h
    rfl
  · have din := regAt_din hk
    refine ⟨_, step_read_register hi (regLegal_word (by omega) (by omega)) (.inr (by rw [din]; rfl)), fun j hj => ?_⟩
    rw [din]
    exact lane_readWord s.din hk hj

/-- Settles O47: the key and the slots reach no response, and a key register's word is 0. -/
theorem keyMaterialIsUnreadable : Obligations.KeyMaterialIsUnreadable := by
  unfold Obligations.KeyMaterialIsUnreadable
  refine ⟨fun s a => hostAccess_resp_withKeyMaterial a s, fun s k hk => ?_⟩
  rw [hostAccess, hostRead, if_pos (regLegal_word (by omega) (by omega)), regAt_key hk]
  simp [readDefinedWhileBusy, regRead]

/-- Settles O9: each offset is looked up in the register map. -/
theorem idleRegisterReads : Obligations.IdleRegisterReads := by
  unfold Obligations.IdleRegisterReads
  intro s offset rest hs hi
  have read (ho : offset < 0x1000) (ha : offset % 4 = 0) :=
    step_read_register hi (regLegal_word ho ha) (.inl (busy_of_idle hs))
  refine ⟨?_, ?_, ?_, ?_, ?_, ?_, ?_, ?_, fun ha ho => ?_⟩
  rotate_right
  · obtain ⟨-, zero⟩ := regRead_regAt_zero (offset := offset) (by omega) s
    rw [read (by omega) ha, zero]
  · rintro rfl
    exact ctrlWord_eq s ▸ read (by decide) rfl
  rotate_left 5
  · rintro rfl
    exact ⟨_, read (by decide) rfl, stResultWord_pass s, stResultWord_reserved s, stResultWord_ran s,
      stResultWord_reserved_high s⟩
  all_goals
    rintro rfl
    exact read (by decide) rfl

/-- Settles O10: each offset is looked up in the register map. -/
theorem idleRegisterWrites : Obligations.IdleRegisterWrites := by
  unfold Obligations.IdleRegisterWrites
  intro s v offset rest hs hi
  have write (ho : offset < 0x1000) (ha : offset % 4 = 0) :=
    step_write_register hi (regLegal_word ho ha) (.inl (busy_of_idle hs))
  refine ⟨?_, ?_, ?_, ?_, ?_, ?_, fun ha ho => ?_⟩
  rotate_right
  · rw [write (by omega) ha]
    obtain e | ⟨k, e⟩ | e | e := regAt_readOnly (offset := offset) (by omega) <;> rw [e] <;> rfl
  all_goals
    rintro rfl
    exact write (by decide) rfl

end Sys2Proof.Proofs
end

section
/-!
SUPPORT. What a whole step does to `OVR`, to the draw of `DBUF` and to the recorded faults (10_state.md R26;
70_reset_and_hazards.md R266; 60_exceptions.md R243).
-/

namespace Sys2Proof.Proofs

open Sys2Proof.Machine Sys2Proof.Claims

theorem engineTurn_ovr {s t : State} (h : engineTurn s = .next t) : t.ovr = s.ovr := by
  obtain ⟨frame, -⟩ := engineTurn_frame h
  obtain ⟨⟨-, hovr, -⟩, -⟩ := frame.unwritten
  exact hovr

theorem engineTurn_epoch {s t : State} (h : engineTurn s = .next t) : t.epoch = s.epoch := by
  obtain ⟨frame, -⟩ := engineTurn_frame h
  obtain ⟨-, -, hepoch, -⟩ := frame.unwritten
  exact hepoch

theorem engineTurn_answers (s : State) : ∃ t, engineTurn s = .next t := by
  obtain ⟨-, e⟩ | ⟨w, why, -, -, e⟩ | ⟨w, i, -, -, e⟩ := engineTurn_cases s
  · exact ⟨_, e⟩
  · exact ⟨_, e⟩
  · exact ⟨_, e.trans (exec_eq i s)⟩

/-- All that a step can make of `OVR` (10_state.md R26). -/
theorem step_ovr {s t : State} (h : step s = .next t) :
    t.ovr = s.ovr ∨
    (t.ovr = true ∧ busy s = true ∧ ∃ offset size v rest, s.inputs = .access (.write offset size v) :: rest) ∨
    (∃ v rest, s.inputs = .access (.write 0x008 4 v) :: rest ∧ t.ovr = (s.ovr && !v.getLsbD 2)) ∨
    (∃ rest, s.inputs = .reset :: rest) ∧ t.ovr = false := by
  obtain ⟨-, e⟩ | ⟨rest, -, e⟩ | ⟨a, rest, hi, e⟩ | ⟨rest, hi, e⟩ := step_cases s <;> rw [e] at h
  · exact .inl (engineTurn_ovr h)
  · exact .inl (engineTurn_ovr (s := { s with inputs := rest }) h)
  · obtain rfl := next_inj h
    obtain kept | ⟨set, hb, offset, size, v, rfl⟩ | ⟨v, rfl, cleared⟩ :=
      (hostAccess_effect a { s with inputs := rest }).ovr
    · exact .inl kept
    · exact .inr (.inl ⟨set, hb, offset, size, v, rest, hi⟩)
    · exact .inr (.inr (.inl ⟨v, rest, hi, cleared⟩))
  · exact .inr (.inr (.inr ⟨⟨rest, hi⟩, next_inj h ▸ rfl⟩))

/-- No step but a reset starts a new draw of `DBUF` (70_reset_and_hazards.md R266). -/
theorem step_epoch {s t : State} (hreset : ¬ ∃ rest, s.inputs = .reset :: rest) (h : step s = .next t) :
    t.epoch = s.epoch := by
  obtain ⟨-, e⟩ | ⟨rest, -, e⟩ | ⟨a, rest, -, e⟩ | ⟨rest, hi, -⟩ := step_cases s
  · exact engineTurn_epoch (e ▸ h)
  · exact engineTurn_epoch (s := { s with inputs := rest }) (e ▸ h)
  · obtain rfl := next_inj (e ▸ h)
    obtain ⟨-, -, -, -, -, -, hepoch, -⟩ := (hostAccess_effect a { s with inputs := rest }).frame.unwritten
    exact hepoch
  · exact absurd ⟨rest, hi⟩ hreset

/-- No step takes a recorded fault away (60_exceptions.md R243; log entries 10 and 11). -/
theorem step_faults {s t : State} (h : step s = .next t) {f : HostFault} (hf : f ∈ s.faults) : f ∈ t.faults := by
  refine step_invariant (P := (f ∈ ·.faults)) (fun _ _ hf => hf) (fun _ hf => hf) (fun i u v hf h => ?_)
    (fun a u hf => (hostAccess_effect a u).faults.mem hf) (fun _ hf => hf) hf h
  obtain ⟨-, added⟩ := exec_frame h
  exact added.mem hf

end Sys2Proof.Proofs
end

section
/-!
PROOFS. The statements about single steps, `OVR` and reset (10_state.md section 2; 45_control.md section 1;
70_reset_and_hazards.md section 1).
-/

namespace Sys2Proof.Proofs

open Sys2Proof.Machine Sys2Proof.Claims

/-- Settles O5: the engine's turn reads the word in flight, whatever else the state holds. -/
theorem stepCompletesTheDecodedCommand : Obligations.StepCompletesTheDecodedCommand := by
  unfold Obligations.StepCompletesTheDecodedCommand
  refine ⟨fun s w i hs hd => ⟨fun hi => ?_, fun rest hi => ?_⟩, fun s hs => ⟨fun hi => ?_, fun rest hi => ?_⟩,
    fun s w i hd => ?_⟩
  · rw [step_nil hi, engineTurn_command hs hd]
  · exact (step_engine hi).trans (engineTurn_command (s := { s with inputs := rest }) hs hd)
  · rw [step_nil hi, Safety.engineTurn_idle hs]
  · exact (step_engine hi).trans (Safety.engineTurn_idle (s := { s with inputs := rest }) hs)
  · exact (step_engine rfl).trans (engineTurn_command rfl hd)

/-- Settles O50: every command completes, and every other step answers by its definition. -/
theorem everyStepAnswersANextState : Obligations.EveryStepAnswersANextState := by
  unfold Obligations.EveryStepAnswersANextState
  intro s
  obtain ⟨-, e⟩ | ⟨rest, -, e⟩ | ⟨a, rest, -, e⟩ | ⟨rest, -, e⟩ := step_cases s <;> rw [e]
  · exact engineTurn_answers _
  · exact engineTurn_answers _
  · exact ⟨_, rfl⟩
  · exact ⟨_, rfl⟩

/-- Settles O43: of the four things a step can make of `OVR`, one sets it and two clear it. -/
theorem ovrSetAndCleared : Obligations.OvrSetAndCleared := by
  unfold Obligations.OvrSetAndCleared
  intro s t h
  obtain kept | ⟨set, dropped⟩ | ⟨v, rest, hi, cleared⟩ | ⟨reset, cleared⟩ := step_ovr h
  · rw [kept]
    exact ⟨fun h₀ h₁ => absurd (h₀.symm.trans h₁) nofun, fun h₁ h₀ => absurd (h₀.symm.trans h₁) nofun⟩
  · exact ⟨fun _ _ => dropped, fun _ h₀ => absurd (h₀.symm.trans set) nofun⟩
  · rw [cleared]
    refine ⟨fun h₀ h₁ => ?_, fun h₁ h₀ => .inr ⟨v, rest, hi, ?_⟩⟩
    · simp [h₀] at h₁
    · simpa [h₁] using h₀
  · exact ⟨fun _ h₁ => absurd (cleared.symm.trans h₁) nofun, fun _ _ => .inl reset⟩

/-- Settles O45: the reset input empties the list of written bytes, and an unlisted byte reads as its draw. -/
theorem resetRedrawsDbuf : Obligations.ResetRedrawsDbuf := by
  unfold Obligations.ResetRedrawsDbuf
  refine ⟨fun s rest hi => ⟨_, step_reset hi, fun _ => rfl, rfl, rfl, rfl, rfl, rfl⟩, fun _ => rfl, rfl,
    fun s a n v b hb ho => ?_, fun s t hreset h => step_epoch hreset h⟩
  rw [dbufByte_dbufWrite, if_neg (by omega), dbufByte, hb]

end Sys2Proof.Proofs
end

section
/-!
SUPPORT. What each command leaves when it completes: the modes as runs with their frames (43_cbc.md R181, R182;
44_cfb128.md R198, R199), the slots after `SETKEY_*` and `CLEAR_CTX` (41_key_schedule.md R144 to R148), and the code of
a data command without its context (60_exceptions.md R243).
-/

namespace Sys2Proof.Proofs

open Sys2Proof.Machine Sys2Proof.Claims

/-- A CBC command that passes its checks changes nothing but `IV` and `DBUF`, and those as its run does. -/
theorem exec_cbcCommand_view {d : Dir} {s : State} (hc : HasContext s d) (hlen : s.len.toNat % 16 = 0)
    (hr : InRange s) :
    ∃ t, exec (cbcCommand d) s = .next (finish .ok t) ∧ t = { s with dbuf := t.dbuf, iv := t.iv } ∧
      cbcView t = cbcRun d (blockFunction d s) s.src.toNat s.dst.toNat (cbcView s) (s.len.toNat / 16) := by
  have checks : cbcChecks d s = none := cbcChecks_none.2 ⟨hc, hlen, hr⟩
  have frame : StreamFrame s (forUpTo (cbcUnit d) (s.len.toNat / 16) s) := forUpTo_frame (cbcUnit_frame d) _ s
  refine ⟨_, ?_, ?_, cbcView_forUpTo_cbcUnit d (s.len.toNat / 16) s⟩
  · cases d with
    | enc => simp only [cbcCommand, exec, execCbcEnc, checks, runChecked_none, cbcUnit]
    | dec => simp only [cbcCommand, exec, execCbcDec, checks, runChecked_none, cbcUnit]
  · have offset := forUpTo_cbcUnit_offset d (s.len.toNat / 16) s
    unfold StreamFrame at frame
    rw [offset] at frame
    exact frame

/-- The state after a CBC command and what a run says of its bytes, in the form of the statements. -/
theorem cbcCommand_completes {d : Dir} {s : State} (hc : HasContext s d) (hlen : s.len.toNat % 16 = 0)
    (hr : InRange s) :
    ∃ t, exec (cbcCommand d) s = .next t ∧
      t = { s with dbuf := t.dbuf, iv := t.iv, err := .ok, seq := .idle, done := true } ∧
      cbcView t = cbcRun d (blockFunction d s) s.src.toNat s.dst.toNat (cbcView s) (s.len.toNat / 16) ∧
      ∀ a, a < s.dst.toNat ∨ s.dst.toNat + s.len.toNat ≤ a → dbufByte t a = dbufByte s a := by
  obtain ⟨t, ht, frame, view⟩ := exec_cbcCommand_view hc hlen hr
  refine ⟨_, ht, ?_, by rw [cbcView_finish, view], fun a ha => ?_⟩
  · rw [frame]
    rfl
  · have bytes := congrFun (congrArg Prod.fst view) a
    rw [cbcRun_frame d _ _ _ _ (Nat.zero_le _) (by omega), cbcRun_zero] at bytes
    exact bytes

/-- A CFB128 command that passes its checks changes nothing but `IV`, `OFFSET` and the bytes of its output buffer
(44_cfb128.md R198, R199). -/
theorem cfbCommand_completes (enc : Bool) {s : State} (hc : HasContext s .enc) (hr : InRange s) :
    ∃ t, exec (cfbCommand enc) s = .next t ∧
      t = { s with dbuf := t.dbuf, iv := t.iv, offset := t.offset, err := .ok, seq := .idle, done := true } ∧
      cfbView t = cfbRunFrom enc (blockFunction .enc s) s.src.toNat s.dst.toNat (cfbView s) s.len.toNat ∧
      ∀ a, a < s.dst.toNat ∨ s.dst.toNat + s.len.toNat ≤ a → dbufByte t a = dbufByte s a := by
  obtain ⟨t, ht, frame, view⟩ := exec_cfbCommand enc hc hr
  unfold StreamFrame at frame
  refine ⟨_, ht, ?_, by rw [cfbView_finish, view], fun a ha => ?_⟩
  · rw [frame]
    rfl
  · have bytes := congrFun (congrArg CfbRun.mem view) a
    rw [cfbRunFrom_frame enc _ _ _ _ (Nat.zero_le _) (by omega), cfbRunFrom_zero] at bytes
    exact bytes

/-- `SETKEY_*` with a legal length leaves the schedule in `RK[0..NR]` and the slots above as they are
(41_key_schedule.md R144, R145). -/
theorem loadContext_completes (d : Dir) {keylen : Nat} (hk : keylenOk keylen = true) (s : State) :
    let t := finish .ok (loadContext d (keySchedule d s.cfg.tables s.key.toList keylen) s)
    t = { s with rk := t.rk, nr := BitVec.ofNat 4 (roundCount keylen), ctxDir := d, ctxValid := true,
                 err := .ok, seq := .idle, done := true } ∧
      (∀ r, r ≤ roundCount keylen →
        slot t.rk r = (keySchedule d s.cfg.tables s.key.toList keylen).keys.getD r Block.zero) ∧
      ∀ r, roundCount keylen < r → slot t.rk r = slot s.rk r := by
  intro t
  have fits := keySchedule_fits d s.cfg.tables s.key hk
  have rounds := keySchedule_nr d s.cfg.tables s.key.toList keylen
  have slots := slot_storeKeys fits s.rk
  rw [rounds] at slots
  refine ⟨?_, fun r hr => (slots r).trans (if_pos hr), fun r hr => (slots r).trans (if_neg (by omega))⟩
  rw [← rounds]
  rfl

/-- The check of the context is the first of a data command's checks. -/
theorem codeOf_data_of_not_hasContext {i : Instr} {d : Dir} {s : State}
    (hi : ((i = .ecbEnc ∨ i = .cbcEnc ∨ i = .cfbEnc ∨ i = .cfbDec) ∧ d = .enc) ∨
      ((i = .ecbDec ∨ i = .cbcDec) ∧ d = .dec)) (hc : ¬ HasContext s d) :
    DataCommand i ∧ codeOf i s = .contractViolation := by
  unfold HasContext at hc
  rw [codeOf_eq_firstError]
  obtain ⟨rfl | rfl | rfl | rfl, rfl⟩ | ⟨rfl | rfl, rfl⟩ := hi <;>
    exact ⟨by simp [DataCommand], if_pos hc⟩

theorem slot_zero (r : Nat) : slot (Vector.replicate 15 Block.zero) r = Block.zero := by
  rw [slot, Vector.toList_replicate, List.getD_eq_getElem?_getD, List.getElem?_getD_replicate_default_eq]

end Sys2Proof.Proofs
end

section
/-!
PROOFS. The statements about the completion of the commands (41_key_schedule.md section 2, 42_block_transform.md section
2, 43_cbc.md section 2, 44_cfb128.md section 2) and the refusal of the data commands (60_exceptions.md R243).
-/

namespace Sys2Proof.Proofs

open Sys2Proof.Machine Sys2Proof.Claims

/-- Settles O20: the schedule fits the slots up to `NR`. -/
theorem setkeyEncCompletes : Obligations.SetkeyEncCompletes := by
  unfold Obligations.SetkeyEncCompletes
  intro s keylen hk
  have hok : keylenOk keylen = true := (keylenOk_iff keylen).2 hk
  exact ⟨_, exec_setkeyEnc_of_keylenOk hok s, loadContext_completes .enc hok s⟩

/-- Settles O21: the schedule fits the slots up to `NR`. -/
theorem setkeyDecCompletes : Obligations.SetkeyDecCompletes := by
  unfold Obligations.SetkeyDecCompletes
  intro s keylen hk
  have hok : keylenOk keylen = true := (keylenOk_iff keylen).2 hk
  exact ⟨_, exec_setkeyDec_of_keylenOk hok s, loadContext_completes .dec hok s⟩

/-- Settles O26: the slots and the key words are all written with zeros. -/
theorem clearCtxCompletes : Obligations.ClearCtxCompletes := by
  unfold Obligations.ClearCtxCompletes
  exact fun s => ⟨_, exec_eq .clearCtx s, rfl, slot_zero, keyWord_of_key_eq_reset rfl⟩

/-- Settles O27: the one check passes, and the body writes `DOUT`. -/
theorem ecbCompletes : Obligations.EcbCompletes := by
  unfold Obligations.EcbCompletes
  refine ⟨fun s hc => ?_, fun s hc => ?_⟩
  · simp only [exec, execEcbEnc, ecbChecks_none.2 hc, runChecked_none, encryptBlock, setDout, finish]
  · simp only [exec, execEcbDec, ecbChecks_none.2 hc, runChecked_none, decryptBlock, setDout, finish]

/-- Settles O28: the loop is the run of the pseudocode, which writes the output buffer only. -/
theorem cbcEncCompletes : Obligations.CbcEncCompletes := by
  unfold Obligations.CbcEncCompletes
  intro s hc hlen hr
  obtain ⟨t, ht, frame, view, outside⟩ := cbcCommand_completes hc hlen hr
  exact ⟨t, ht, frame, congrArg Prod.snd view, congrFun (congrArg Prod.fst view), outside⟩

/-- Settles O29: the loop is the run of the pseudocode, which writes the output buffer only. -/
theorem cbcDecCompletes : Obligations.CbcDecCompletes := by
  unfold Obligations.CbcDecCompletes
  intro s hc hlen hr
  obtain ⟨t, ht, frame, view, outside⟩ := cbcCommand_completes hc hlen hr
  exact ⟨t, ht, frame, congrArg Prod.snd view, congrFun (congrArg Prod.fst view), outside⟩

/-- Settles O30: the loop is the run of the pseudocode, which writes the output buffer only. -/
theorem cfbEncCompletes : Obligations.CfbEncCompletes := by
  unfold Obligations.CfbEncCompletes
  intro s hc hr
  obtain ⟨t, ht, frame, view, outside⟩ := cfbCommand_completes true hc hr
  obtain ⟨bytes, hiv, hoffset⟩ := CfbRun.mk.inj view
  exact ⟨t, ht, frame, ⟨hiv, hoffset, congrFun bytes⟩, outside⟩

/-- Settles O31: the loop is the run of the pseudocode, which writes the output buffer only. -/
theorem cfbDecCompletes : Obligations.CfbDecCompletes := by
  unfold Obligations.CfbDecCompletes
  intro s hc hr
  obtain ⟨t, ht, frame, view, outside⟩ := cfbCommand_completes false hc hr
  obtain ⟨bytes, hiv, hoffset⟩ := CfbRun.mk.inj view
  exact ⟨t, ht, frame, ⟨hiv, hoffset, congrFun bytes⟩, outside⟩

/-- Settles O37: the check of the context comes first, and completions and accesses only add to the recorded faults. -/
theorem contractViolationIsRefused : Obligations.ContractViolationIsRefused := by
  unfold Obligations.ContractViolationIsRefused
  refine ⟨fun i d s hi hc => ?_, fun s t h f => step_faults h⟩
  obtain ⟨hdata, hcode⟩ := codeOf_data_of_not_hasContext hi hc
  exact exec_data_failed hdata hcode nofun

end Sys2Proof.Proofs
end
